-- ==== Sys2Proof/Word.lean ====
section
/-! DEFINITION. The word types of the FZ1096 (R9, R50, R139): what the manual treats as bits is a bit vector; counts,
indices and addresses are natural numbers. -/

namespace Sys2Proof

/-- A byte of SRAM, HBM or host memory. -/
abbrev Byte := BitVec 8
/-- A register of a BAR0 page, a lane of a vector register, an fp32 value (R9, R50). -/
abbrev W32 := BitVec 32
/-- A scalar or address register, a slice header, an instruction word (R52, R139, R152). -/
abbrev W64 := BitVec 64
/-- A vector register, or one row of an accumulator tile (R139, R192). -/
abbrev W2048 := BitVec 2048

end Sys2Proof
end

