-- ==== Sys2Proof/Syntax.lean ====
section
/-! DEFINITION. The commands of the FZ1096: one constructor of `Instr` per row of spec/opcode_table.json, with the
operands that row takes from outside. A row that is an instruction of a stroke plan carries the issue of it; a row that is
an order carries its source and its fields; a row that is an event carries what the world outside the block did: the analog
readings, the data that arrived, the faults (log entry 7). -/

namespace Sys2Proof

/-! ### Stroke-plan instructions (R152) -/

/-- The assigned opcodes of R154 and R180. -/
inductive Opcode where
  | nop | jmp | brp | loop | halt | wstrk | bar | fence | movsr
  | li | alu | addi | cmp | sel
  | aeval | aevalb | athr | arange | arefc | achk | aproof
  | qb4 | qb8 | dqc | cvt
  | ldv | stv | dmar | dmaw | kvap | kvgt | mimg
  | send | recv | lig | mcast
  | mma8 | mmah | mma4 | vfma | valu | vred | vexp | vrsq | topk | samp
  | reqn | toko | canq | spec
  | blot | dgst | susp | fcpy
  deriving DecidableEq, Repr

/-- The operand fields of an instruction word (R152). -/
structure Fields where
  dest  : BitVec 6
  src1  : BitVec 6
  src2  : BitVec 6
  guard : BitVec 3
  flags : BitVec 3
  imm   : BitVec 32
  deriving DecidableEq, Repr

/-- What the inline hardware checks that cover one instruction found (R102, R170, R210, R247): the outcome comes from
outside, as the faults themselves do. -/
inductive HwCheck where
  /-- every check passed -/
  | ok
  /-- residue-check failure in the digital engine (R210) -/
  | residue
  /-- SRAM word at the address: a single-bit error, corrected (R102) -/
  | sramCorrected (addr : Nat)
  /-- SRAM word at the address: uncorrectable (R102) -/
  | sramUncorrectable (addr : Nat)
  /-- HBM read of the stack at the address: corrected (R425) -/
  | hbmCorrected (stack addr : Nat)
  /-- HBM read of the stack at the address: uncorrectable (R170) -/
  | hbmUncorrectable (stack addr : Nat)
  /-- instruction store or checkpoint store uncorrectable (R247) -/
  | storeUncorrectable
  /-- blotter uncorrectable: in the entries of one request, or in what belongs to none (R247, R249) -/
  | blotterUncorrectable (slot : Option Nat)
  /-- duplicated DMA address counters or the transfer's CRC-32C disagree (R247) -/
  | dma
  deriving DecidableEq, Repr

/-- One instruction as a scribe issues it: the logical core whose plan issues it, the region cycles since the step began
(R88 counts the broad budget in them), its fields, and what the inline checks found. -/
structure Issue where
  lcore : Nat
  cycle : Nat
  f     : Fields
  hw    : HwCheck
  /-- what the checks of the other-hardware computation found, in a replay step (R254, R255) -/
  hwOther : HwCheck
  /-- the digest of all that the implicated core itself has sent and staged in a replay step that a substitute runs beside it (R255) -/
  sameDigest : Option W64
  deriving DecidableEq, Repr


/-! ### Readings of arrays (chapter 2) -/

/-- What one narrow evaluation, or one half of a broad pass, depends on beside the cells and the corrections (R26, R33, R38 to
R40, R45): the analog errors of the 512 data columns and of REF1 to REF7, in units of 2^-16 of D (R33); the error of each
check group's charge check, in 1/16 code (R40); whether a fault shows, and then the charge that it adds to each data column
and to the check nodes, in 1/16 code, and the codes by which it shifts each conversion; by how much the duplicate check nodes
differ, in 1/16 code (R37); the junction temperature in 1/16 degree C. -/
structure Reading where
  eps    : List Int
  epsRef : List Int
  rho    : List Int
  fault  : Bool
  charge : List Int
  conv   : List Int
  chk    : List Int
  dup    : List Int
  temp   : Int
  deriving DecidableEq, Repr

/-! ### Mesh flits (chapter 5) -/

/-- A mesh flit (R104): the fields of its sideband but for the CRC, which a port checks as the flit arrives, and its payload. -/
structure Flit where
  dest     : Nat
  src      : Nat
  vc       : Nat
  typ      : Nat
  tag      : Nat
  lfmt     : Bool
  last     : Bool
  ncontrib : Nat
  stepTag  : Nat
  lchk     : W32
  payload  : BitVec 512
  /-- the edge port that a flit with DEST 0x7FF is for: no field of the sideband names it (log entry 94) -/
  edge     : Nat
  deriving DecidableEq, Repr

/-- What ROUTER_FAULT reports (R122): kind 1 the whole router, by its self-check or because its duplicated adders disagree on the fp32
ligature `adder` (tag and step tag, R111); any other kind a link or crossing that the self-check finds down. -/
structure RouterFault where
  kind  : Nat
  adder : Option (Nat × Nat)
  deriving DecidableEq, Repr

/-- What a buddy tells of its side in a heartbeat (R293, R316, R317, R319): that it runs the PAIR profile with a buddy port UP, with EN set,
a mirror pool and a plan loaded; the edition it serves, the digest of its plan, its block's extents and its position there, whether it is
its job's entry device, and the KV pages of its partition. -/
structure BuddyTell where
  ok      : Bool
  edition : Nat
  digest  : BitVec 256
  extents : Nat × Nat × Nat
  pos     : Nat
  entry   : Bool
  pages   : Nat
  deriving DecidableEq, Repr

/-- A route-table entry: the output port of a router for a physical core, or for edge port e as destination 1152 + e (R106). -/
structure RouteEntry where
  router : Nat
  dest   : Nat
  port   : Nat
  deriving DecidableEq, Repr

/-! ### Requests (chapter 9) -/

/-- A request descriptor as the device reads it from the intake ring (R214): its 256 bytes. -/
abbrev DescBytes := List Byte

/-- What an entry device reads of host memory for one partition at an intake window (R213): the head index, the
descriptors in ring order that arrived in time, the consumed counters of request slots, the prompt tokens of slots; none is a
DMA error. -/
structure IntakeRead where
  part     : Nat
  head     : Option Nat
  descs    : List (Option DescBytes)
  consumed : List (Nat × Option Nat)
  prompts  : List (Nat × Option (List (BitVec 32)))
  deriving DecidableEq, Repr

/-! ### Bring-up (chapter 14) -/

/-- What the work of a bring-up step finds (R350 to R358). -/
inductive BringWork where
  /-- self-test that failed; whether the retained HBM, mesh and array data is intact; powered hours since the last full
  BIST; the two leak sensing paths -/
  | selfTest (failed : Option Nat) (hbmKept meshKept arrayKept : Bool) (bistAge : Nat) (leakExt leakInt : Bool)
  /-- fuse bank whose CRC fails (steps 2 and 5) -/
  | fuses (bad : Option Nat)
  /-- raw codes of PC0, PC2 and PC4 to PC9; channels whose calibration record has a wrong check word (R405) -/
  | converter (codes : List (Nat × Int)) (badRec : List Nat)
  /-- lock time of each domain in 0.1 ms; none where it does not lock -/
  | plls (times : List (Nat × Option Nat))
  /-- boot firmware: nothing from outside, the slots are state -/
  | boot
  /-- channels trained and rate of each stack -/
  | hbm (trained : List (Nat × Nat))
  /-- cores that fail BIST -/
  | bist (bad : List Nat)
  /-- cores whose router fails, link directions that fail (core, port), mesh connected, route-table entries of the detours -/
  | mesh (bad : List Nat) (down : List (Nat × Nat)) (connected : Bool) (routes : List RouteEntry)
  /-- after each round, the chunks missing at cores (core, chunk), and chunks a replacement spare still lacks -/
  | broadcast (rounds : List (List (Nat × Nat))) (spareLacks : List Nat)
  /-- arrays without a valid trim record; the non-volatile block cannot be read -/
  | trims (bad : List Nat) (unreadable : Bool)
  /-- arrays whose read-back disagrees; arrays whose residency record has a wrong check word -/
  | verify (bad badRec : List Nat)
  /-- nothing from outside (steps 13 to 15) -/
  | none
  deriving DecidableEq, Repr

/-- A request of a SEND or MCAST as it reaches a destination (R175): the sender's plan index or device, tag, length, and
the sender's transaction. -/
structure RendezvousReq where
  peer   : Nat
  device : Option Nat
  tag    : Nat
  len    : Nat
  id     : Nat
  stepNo : Nat
  deriving DecidableEq, Repr

/-- A staged item of the blotter (R250), in the order of staging. -/
inductive Item where
  | record (slot token prob endKind : Nat)
  | kv (slot page pos off : Nat) (data : List Byte) (draft : Bool)
  | state (slot off : Nat) (data : List Byte)
  | spec (slot : Nat) (promote truncate : List Nat)
  deriving DecidableEq, Repr

/-- A status message of a device of the block (R87): sender's block position, READY, step and stroke-number bits (R79), suspect
holds (R19), its pair lost, its pair PAIRED (R316, R320), whether its arrays hold the rolling edition (R293), and its refused broad
requests by token position of the step (R90). -/
structure StatusMsg where
  position  : Nat
  ready     : Bool
  stepNo    : Nat
  number    : Nat
  holds     : List Nat
  holdAll   : Bool
  lost      : Bool
  paired    : Bool
  canSwitch : Bool
  refused   : List (Nat × Nat)
  deriving DecidableEq, Repr

/-- A decision of the entry device (R87), with ADOPT (R320), the edition switch (R293), whether the job is paired for the step
(R316), whether a device of the block refused a broad request (R92), and whether the buddy forwards it (R318). -/
structure DecisionMsg where
  commit  : Bool
  stepNo  : Nat
  number  : Nat
  holds   : List Nat
  holdAll : Bool
  adopt   : Bool
  switch  : Bool
  paired  : Bool
  refused : Bool
  buddy   : Bool
  deriving DecidableEq, Repr

/-- One input position of a projection, captured from service (R69): the fp32 inputs, the input slices with their headers in the granted
format (R60), the array output y_j of R65, the image tiles of the projection by column tile and row tile, in route order, and whether
they are summed as fp32 ligatures. -/
structure Capture where
  x      : List W32
  slices : List (W64 × List Int)
  y      : List W32
  tiles  : List (List Nat)
  fp32   : Bool
  deriving DecidableEq, Repr

/-- What training does in an idle slot (R69): it captures a position, or trains a batch: step size, the captures held out. -/
inductive TrimWork where
  | capture (c : Capture)
  | train (eta : W32) (held : List Nat)
  deriving DecidableEq, Repr

/-- A link block as it arrives (R300, R301): its 1,040 bytes, and the symbols that FEC corrected. -/
structure LinkBlock where
  bytes : List Byte
  corrected : Nat
  deriving DecidableEq, Repr

/-- What the peer of a link tells in training (R307): coordinate, profile, number of racks, port number and buddy coordinate. -/
structure Training where
  coord    : Nat
  profile  : Nat
  racks    : Nat
  peerPort : Nat
  buddy    : Option Nat
  deriving DecidableEq, Repr

/-- An entry of a request list as the entry device forwards it (R18, R201, R216): slot, generation, descriptor KIND, and what the
step does with it. -/
structure ListMsg where
  slot : Nat
  gen : Nat
  kind : Nat
  prefill : Bool
  speculative : Bool
  resumed : Bool
  ctrl : Nat
  positions : Nat
  position : Nat
  adapter : Option Nat
  priority : Nat
  delivered : Nat
  seed : W64
  prefixLen : Nat
  promptLen : Nat
  maxTokens : Nat
  params : List Byte
  handle : Option Nat
  deriving DecidableEq, Repr

/-- An Avgon payload that a RECV of the step received (R250): the receiving plan index, its tag, the sender and its block position. -/
structure Payload where
  pindex : Nat
  tag    : Nat
  peer   : Nat
  device : Nat
  data   : List Byte
  deriving DecidableEq, Repr

/-- A token that the entry device has committed, as the other devices of the block learn of it (R18): slot, generation, SEQ, token. -/
structure TokenMsg where
  slot  : Nat
  gen   : Nat
  seq   : Nat
  token : Nat
  deriving DecidableEq, Repr

/-- A taint report as the partner sends it (R264): its fields, and the requests by slot and generation. -/
structure TaintMsg where
  seq    : Nat
  source : Nat
  result : Nat
  prev   : Option Nat
  pcore  : Nat
  array  : Nat
  jobId  : Nat
  first  : Nat
  last   : Nat
  slots  : List (Nat × Nat)
  deriving DecidableEq, Repr

/-- Job control messages between devices of a block, and between buddies (R18, R230, R259, R264, R320, R322, R343). -/
inductive JobMsg where
  /-- request list of the step -/
  | list (es : List ListMsg)
  /-- tokens committed by the entry device (R18) -/
  | tokens (ts : List TokenMsg)
  /-- slots whose requests have ended on the entry device -/
  | freed (slots : List Nat)
  /-- an accepted cancel (R230) -/
  | cancel (slot gen : Nat)
  /-- reset point of the job's partition on another device (R343) -/
  | reset
  /-- every device of the block has completed the reset (R343) -/
  | resetDone
  /-- a registration taken in by the buddy's entry device: descriptor, handle index, generation, low 29 bits of its count (R322) -/
  | registration (desc : List Byte) (handle gen count29 : Nat)
  /-- the buddy has sealed a handle (R322) -/
  | sealed (handle gen : Nat)
  /-- a release order taken by the buddy's entry device (R322) -/
  | release (handle gen : Nat)
  /-- the buddy has adopted requests of these slots (R320, R324) -/
  | adopted (slots : List Nat)
  /-- the partner's replay (R259): request list, special registers and grants by plan index, payloads -/
  | replay (es : List ListMsg) (special : List (Nat × List W32)) (grants : List (Nat × List Bool)) (payloads : List Payload)
  /-- a program fault is confirmed on another device of the block (R148) -/
  | progFault
  /-- the buddy's result of an inserted replay step: all checks passed, staged items (R259) -/
  | returned (ok : Bool) (items : List Item)
  /-- a report of the partner's that mirrored commits fall in (R264) -/
  | taint (t : TaintMsg)
  deriving DecidableEq, Repr

/-- The mirrored record of a request (R317): the 256-byte descriptor, state code (R227) and state before a pause, generation, next SEQ
(the delivered count), positions, strokes since last listed, handle value, CRC of the named adapter, frozen. -/
structure MirrorReq where
  slot : Nat
  desc : List Byte
  state : Nat
  before : Nat
  gen : Nat
  nextSeq : Nat
  lastToken : Nat
  position : Nat
  promptDone : Nat
  prefixLen : Nat
  waited : Nat
  handle : Option Nat
  adapterCrc : Option Nat
  frozen : Bool
  deriving DecidableEq, Repr

/-- Mirror data of the partner (R317): a request's record, a committed KV position by map key and position, bytes of a state area, an
accepted cancel, a terminator. -/
inductive MirrorMsg where
  | request (r : MirrorReq)
  | kv (slot key pos : Nat) (data : List Byte)
  | area (slot off : Nat) (data : List Byte)
  | cancel (slot : Nat)
  | ended (slot : Nat)
  deriving DecidableEq, Repr

/-- A sensor's sample: reading in 1/16 degree C and its self-check (R381, R383). -/
structure SensorRead where
  value : Int
  ok    : Bool
  deriving DecidableEq, Repr

/-- The commands: one constructor per row of the table of operations and events. -/
inductive Instr where
  /-- AEVAL (R158) -/
  | aeval (i : Issue)
  /-- AEVALB (R159) -/
  | aevalb (i : Issue)
  /-- ATHR (R160) -/
  | athr (i : Issue)
  /-- ARANGE (R161) -/
  | arange (i : Issue)
  /-- AREFC (R162) -/
  | arefc (i : Issue)
  /-- ACHK (R164) -/
  | achk (i : Issue)
  /-- APROOF (R165) -/
  | aproof (i : Issue)
  /-- QB4 (R166) -/
  | qb4 (i : Issue)
  /-- QB8 (R166) -/
  | qb8 (i : Issue)
  /-- DQC_ALIGN_N (R167) -/
  | dqcAlignN (i : Issue)
  /-- DQC_ALIGN_B (R167) -/
  | dqcAlignB (i : Issue)
  /-- DQC_SCALE (R167) -/
  | dqcScale (i : Issue)
  /-- CVT (R168) -/
  | cvt (i : Issue)
  /-- LDV (R169) -/
  | ldv (i : Issue)
  /-- STV (R169) -/
  | stv (i : Issue)
  /-- DMAR (R170) -/
  | dmar (i : Issue)
  /-- DMAW (R170) -/
  | dmaw (i : Issue)
  /-- MIMG (R170) -/
  | mimg (i : Issue)
  /-- KVAP (R172) -/
  | kvap (i : Issue)
  /-- KVGT (R173) -/
  | kvgt (i : Issue)
  /-- TRANSACTION_DONE (R155) -/
  | transactionDone (lcore id : Nat)
  /-- SEND (R175) -/
  | send (i : Issue)
  /-- MCAST (R175) -/
  | mcast (i : Issue)
  /-- RECV (R175) -/
  | recv (i : Issue)
  /-- RENDEZVOUS_REQUEST (R175) -/
  | rendezvousRequest (lcore : Nat) (r : RendezvousReq)
  /-- RENDEZVOUS_ANSWER (R175) -/
  | rendezvousAnswer (lcore id peer : Nat)
  /-- RECV_DATA_ARRIVAL (R175) -/
  | recvDataArrival (lcore id : Nat) (data : List Byte)
  /-- LIG_CONTRIBUTION (R176) -/
  | ligContribution (i : Issue)
  /-- LIG_RECEIPT_MERGE (R177) -/
  | ligReceiptMerge (i : Issue)
  /-- LIG_RECEIPT_CHAIN (R178) -/
  | ligReceiptChain (i : Issue)
  /-- NOP (R184) -/
  | nop (i : Issue)
  /-- JMP (R182) -/
  | jmp (i : Issue)
  /-- BRP (R182) -/
  | brp (i : Issue)
  /-- LOOP (R183) -/
  | loop (i : Issue)
  /-- HALT (R184) -/
  | halt (i : Issue)
  /-- WSTRK (R185) -/
  | wstrk (i : Issue)
  /-- BAR (R186) -/
  | bar (i : Issue)
  /-- FENCE (R187) -/
  | fence (i : Issue)
  /-- MOVSR (R188) -/
  | movsr (i : Issue)
  /-- LI (R189) -/
  | li (i : Issue)
  /-- ALU (R190) -/
  | alu (i : Issue)
  /-- ADDI (R189) -/
  | addi (i : Issue)
  /-- CMP (R191) -/
  | cmp (i : Issue)
  /-- SEL (R191) -/
  | sel (i : Issue)
  /-- MMA8 (R192) -/
  | mma8 (i : Issue)
  /-- MMA4 (R192) -/
  | mma4 (i : Issue)
  /-- MMAH (R192) -/
  | mmah (i : Issue)
  /-- VFMA (R194) -/
  | vfma (i : Issue)
  /-- VALU (R195) -/
  | valu (i : Issue)
  /-- VRED (R196) -/
  | vred (i : Issue)
  /-- VEXP (R197) -/
  | vexp (i : Issue)
  /-- VRSQ (R197) -/
  | vrsq (i : Issue)
  /-- TOPK (R198) -/
  | topk (i : Issue)
  /-- SAMP (R200) -/
  | samp (i : Issue)
  /-- REQN (R201) -/
  | reqn (i : Issue)
  /-- TOKO (R202) -/
  | toko (i : Issue)
  /-- CANQ (R203) -/
  | canq (i : Issue)
  /-- SPEC_VERIFY (R204) -/
  | specVerify (i : Issue)
  /-- SPEC_DROP (R204) -/
  | specDrop (i : Issue)
  /-- BLOT_STAGE (R206) -/
  | blotStage (i : Issue)
  /-- BLOT_READ (R206) -/
  | blotRead (i : Issue)
  /-- DGST (R207) -/
  | dgst (i : Issue)
  /-- SUSP (R208) -/
  | susp (i : Issue)
  /-- FCPY (R209) -/
  | fcpy (i : Issue)
  /-- ARRAY_DELIVERY (R26) -/
  | arrayDelivery (key : Nat) (hi lo : Reading)
  /-- TRACKING_WINDOW_END (R35) -/
  | trackingWindowEnd (key : Nat)
  /-- FLIT_RECEIVED (R107) -/
  | flitReceived (core port : Nat) (crc : BitVec 16) (f : Flit)
  /-- MESH_RETRY_EXHAUSTED (R107) -/
  | meshRetryExhausted (core port : Nat)
  /-- MESH_CREDIT_TIMEOUT (R107) -/
  | meshCreditTimeout (core port : Nat)
  /-- LIG_SLOT_TIMEOUT (R112) -/
  | ligSlotTimeout (core tag stepTag : Nat)
  /-- LIG_RECEIPT_TIMEOUT (R112) -/
  | ligReceiptTimeout (lcore tag : Nat)
  /-- ROUTER_FAULT (R122) -/
  | routerFault (core port : Nat) (found : RouterFault)
  /-- ROUTE_TABLE_SWITCH (R122) -/
  | routeTableSwitch
  /-- CROSSING_SWITCH_DONE (R114) -/
  | crossingSwitchDone (region : Nat)
  /-- CROSSING_MESOCHRONOUS (R113) -/
  | crossingMesochronous (region side : Nat)
  /-- FENCE_ONLY (R118) -/
  | fenceOnly (src pcore : Nat)
  /-- FENCE_AND_REPLACE (R120) -/
  | fenceAndReplace (src pcore : Nat)
  /-- MIGRATE (R124) -/
  | migrate (src pcore : Nat)
  /-- STROKE_BOUNDARY (R77) -/
  | strokeBoundary
  /-- STATUS_POINT (R87) -/
  | statusPoint
  /-- DECISION_POINT (R87) -/
  | decisionPoint
  /-- STATUS_MESSAGE (R87) -/
  | statusMessage (part : Nat) (m : StatusMsg)
  /-- DECISION_MESSAGE (R87) -/
  | decisionMessage (part : Nat) (m : DecisionMsg)
  /-- SPAN_ABANDON (R93) -/
  | spanAbandon (part : Nat)
  /-- AUTO_PARTIAL_ON (R92) -/
  | autoPartialOn (part : Nat)
  /-- AUTO_PARTIAL_OFF (R92) -/
  | autoPartialOff (part : Nat)
  /-- SUSPECT_HOLD_LIMIT (R258) -/
  | suspectHoldLimit (part : Nat)
  /-- STROKE_SYNC_PULSE (R78) -/
  | strokeSyncPulse (wide : Bool) (offset : Int)
  /-- SYNC_LOST (R78) -/
  | syncLost
  /-- REFCLK_LOSS (R81) -/
  | refclkLoss
  /-- HOLDOVER_END (R82) -/
  | holdoverEnd (wide : Bool) (offset : Int)
  /-- HOLDOVER_EXPIRED (R82) -/
  | holdoverExpired
  /-- PERIOD_SWITCH (R86) -/
  | periodSwitch
  /-- JOB_START (R132) -/
  | jobStart (part : Nat)
  /-- RUN (R79) -/
  | run (src : Nat)
  /-- STOP (R99) -/
  | stop (src : Nat)
  /-- SWITCH_ARM (R86) -/
  | switchArm (src : Nat)
  /-- SWITCH_CANCEL (R86) -/
  | switchCancel (src : Nat)
  /-- RESYNC (R79) -/
  | resync (src : Nat)
  /-- NUM_CLR (R79) -/
  | numClr (src : Nat)
  /-- PHALT_RESUME (R93) -/
  | phaltResume (src part : Nat)
  /-- PPOL_WRITE (R92) -/
  | ppolWrite (src part : Nat) (data : W32)
  /-- INTAKE (R213) -/
  | intake (reads : List IntakeRead)
  /-- REQUEST_DESCRIPTOR (R215) -/
  | requestDescriptor (part : Nat) (desc : Option (List Byte))
  /-- CANCEL (R229) -/
  | cancel (src part : Nat) (data : W64)
  /-- PAUSE (R225) -/
  | pause (src part : Nat) (data : W64)
  /-- RESUME (R225) -/
  | resume (src part : Nat) (data : W64)
  /-- PRIORITY (R225) -/
  | priority (src part : Nat) (data : W64)
  /-- RELEASE (R241) -/
  | release (src part : Nat) (data : W64)
  /-- CQ_CONS_WRITE (R223) -/
  | cqConsWrite (src part : Nat) (data : W32)
  /-- PARK_COPY_DONE (R233) -/
  | parkCopyDone (slot : Nat)
  /-- RESUME_READY (R228) -/
  | resumeReady (slot : Nat) (ok : Bool)
  /-- PARK_TTL_EXPIRED (R233) -/
  | parkTtlExpired (slot : Nat)
  /-- HANDLE_TTL_EXPIRED (R240) -/
  | handleTtlExpired (handle : Nat)
  /-- SAMPLE_COMPARE (R263) -/
  | sampleCompare (id : Nat) (found : List W64)
  /-- TAINT_REPORT_WRITE (R264) -/
  | taintReportWrite
  /-- TAINT_CONS_WRITE (R264) -/
  | taintConsWrite (src : Nat) (data : W32)
  /-- PROOF_PART (R265) -/
  | proofPart
  /-- PROOF_PART_JUDGE (R266) -/
  | proofPartJudge (n : Nat) (own other : W64)
  /-- PROOF_DEADLINE (R267) -/
  | proofDeadline
  /-- PROOF_NEXT (R267) -/
  | proofNext (src : Nat) (data : W32)
  /-- THAW (R258) -/
  | thaw (src : Nat)
  /-- IMAGE_LOAD (R276) -/
  | imageLoad (src : Nat) (data : W32)
  /-- RELOAD (R277) -/
  | reload (src : Nat) (data : W32)
  /-- IMAGE_DONE (R276) -/
  | imageDone (image : Option (List Byte))
  /-- DISCARD_NEXT (R441) -/
  | discardNext (src : Nat) (data : W32)
  /-- PROGRAM (R290) -/
  | program (src : Nat) (data : W32)
  /-- ROLL (R292) -/
  | roll (src : Nat) (data : W32)
  /-- REFRESH (R285) -/
  | refresh (src : Nat) (data : W32)
  /-- ERASE (R282) -/
  | erase (src : Nat) (data : W32)
  /-- WRITE_SLOT_START (R280) -/
  | writeSlotStart
  /-- WRITE_SLOT_DONE (R279) -/
  | writeSlotDone (key : Nat) (ok : Bool)
  /-- OFFLINE_CHANGE_COMPLETE (R290) -/
  | offlineChangeComplete (part : Nat)
  /-- ROLL_SWITCH (R293) -/
  | rollSwitch (part : Nat)
  /-- ARRAY_VERIFY_DONE (R283) -/
  | arrayVerifyDone (key : Nat) (ok : Bool)
  /-- CAL_ORDER (R288) -/
  | calOrder (src : Nat) (data : W32)
  /-- CALIBRATION_EVALUATION (R288) -/
  | calibrationEvaluation (key : Nat)
  /-- CALIBRATION_DONE (R42) -/
  | calibrationDone (key : Nat) (first second : List Int)
  /-- TRIM_ADAPTER_TRAINING (R69) -/
  | trimAdapterTraining (part proj rank : Nat) (w : TrimWork)
  /-- ADAPTER_LOAD (R74) -/
  | adapterLoad (src part : Nat) (data : W32)
  /-- ADAPTER_UNLOAD (R74) -/
  | adapterUnload (src part : Nat) (data : W32)
  /-- ADAPTER_LOAD_DONE (R74) -/
  | adapterLoadDone (part : Nat) (image : Option (List Byte))
  /-- PLAN_LOAD (R132) -/
  | planLoad (src part : Nat) (data : W32)
  /-- PLAN_LOAD_DONE (R132) -/
  | planLoadDone (part : Nat) (image : Option (List Byte))
  /-- PLAN_UNLOAD (R134) -/
  | planUnload (src part : Nat) (data : W32)
  /-- LINK_BLOCK_RECEIVED (R301) -/
  | linkBlockReceived (port : Nat) (b : LinkBlock)
  /-- LINK_PORT_DOWN (R301) -/
  | linkPortDown (port : Nat) (los : Bool)
  /-- PORT_TRAINING_DONE (R307) -/
  | portTrainingDone (port : Nat) (r : Option Training)
  /-- AUTO_RETRAIN (R307) -/
  | autoRetrain (port : Nat)
  /-- RETRAIN (R307) -/
  | retrain (src port : Nat)
  /-- PORT_DISABLE (R326) -/
  | portDisable (src port : Nat) (data : W32)
  /-- PACKET_RECEIVED (R313) -/
  | packetReceived (port vc : Nat)
  /-- ROUTE_ANNOUNCEMENT (R311) -/
  | routeAnnouncement (id : Nat) (lost : Option Nat)
  /-- JOB_CONTROL_MESSAGE (R322) -/
  | jobControlMessage (part : Nat) (m : JobMsg)
  /-- HEARTBEAT_SEND (R319) -/
  | heartbeatSend
  /-- HEARTBEAT_RECEIVED (R319) -/
  | heartbeatReceived (part : Nat) (torus : Bool) (number : Nat) (peer : BuddyTell)
  /-- PARTNER_LOST (R319) -/
  | partnerLost (part : Nat)
  /-- MIRROR_DATA (R318) -/
  | mirrorData (part : Nat) (staged : Bool) (m : MirrorMsg)
  /-- MIRROR_ACK (R318) -/
  | mirrorAck (part kind : Nat)
  /-- COORD_WRITE (R306) -/
  | coordWrite (src : Nat) (coord : W32) (buddy : Option W32)
  /-- GROW_ARM (R308) -/
  | growArm (src racksNext growAt : Nat)
  /-- GROWTH (R308) -/
  | growth
  /-- VF_FLR (R342) -/
  | vfFlr (part : Nat)
  /-- FLR_COMPLETE (R342) -/
  | flrComplete (part : Nat)
  /-- PF_FLR (R344) -/
  | pfFlr
  /-- VF_ENABLE_CLEAR (R344) -/
  | vfEnableClear (enable : Bool) (numVfs : Nat)
  /-- BUS_MASTER_ENABLE (R331) -/
  | busMasterEnable (func : Nat) (value : Bool)
  /-- MSIX_UNMASK (R339) -/
  | msixUnmask (func vector : Nat)
  /-- MODERATION_TIMER (R339) -/
  | moderationTimer (func vector : Nat)
  /-- CREATE (R332) -/
  | create (src : Nat) (data : W32)
  /-- DESTROY (R334) -/
  | destroy (src : Nat) (data : W32)
  /-- PART_RESET (R344) -/
  | partReset (src : Nat) (data : W32)
  /-- PART_RESET_DISCARD (R344) -/
  | partResetDiscard (src : Nat) (data : W32)
  /-- SET_SHARES (R337) -/
  | setShares (src : Nat) (data : W32)
  /-- INTAKE_RELEASE (R344) -/
  | intakeRelease (src part : Nat) (data : W32)
  /-- PERST_N_ASSERT (R341) -/
  | perstNAssert
  /-- PERST_N_DEASSERT (R351) -/
  | perstNDeassert
  /-- WARM_DEVICE_RESET (R341) -/
  | warmDeviceReset
  /-- POWER_ON (R341) -/
  | powerOn
  /-- POWER_LOSS (R430) -/
  | powerLoss
  /-- LOCK_LOST (R351) -/
  | lockLost (domain : Nat)
  /-- BRING_STEP_1 (R350) -/
  | bringStep1 (src : Nat) (fast : Bool) (work : BringWork)
  /-- BRING_STEP_2 (R350) -/
  | bringStep2 (src : Nat) (fast : Bool) (work : BringWork)
  /-- BRING_STEP_3 (R350) -/
  | bringStep3 (src : Nat) (fast : Bool) (work : BringWork)
  /-- BRING_STEP_4 (R351) -/
  | bringStep4 (src : Nat) (fast : Bool) (work : BringWork)
  /-- BRING_STEP_5 (R352) -/
  | bringStep5 (src : Nat) (fast : Bool) (work : BringWork)
  /-- BRING_STEP_6 (R369) -/
  | bringStep6 (src : Nat) (fast : Bool) (work : BringWork)
  /-- BRING_STEP_7 (R350) -/
  | bringStep7 (src : Nat) (fast : Bool) (work : BringWork)
  /-- BRING_STEP_8 (R352) -/
  | bringStep8 (src : Nat) (fast : Bool) (work : BringWork)
  /-- BRING_STEP_9 (R352) -/
  | bringStep9 (src : Nat) (fast : Bool) (work : BringWork)
  /-- BRING_STEP_10 (R358) -/
  | bringStep10 (src : Nat) (fast : Bool) (work : BringWork)
  /-- BRING_STEP_11 (R43) -/
  | bringStep11 (src : Nat) (fast : Bool) (work : BringWork)
  /-- BRING_STEP_12 (R353) -/
  | bringStep12 (src : Nat) (fast : Bool) (work : BringWork)
  /-- BRING_STEP_13 (R354) -/
  | bringStep13 (src : Nat) (fast : Bool) (work : BringWork)
  /-- BRING_STEP_14 (R353) -/
  | bringStep14 (src : Nat) (fast : Bool) (work : BringWork)
  /-- BRING_STEP_15 (R355) -/
  | bringStep15 (src : Nat) (fast : Bool) (work : BringWork)
  /-- BRING_STEP_COMPLETE (R349) -/
  | bringStepComplete (ms : Nat)
  /-- BRING_STEP_TIMEOUT (R349) -/
  | bringStepTimeout (ms : Nat)
  /-- FWUP_PREPARE (R359) -/
  | fwupPrepare (src part : Nat) (bundle : Option (List Byte))
  /-- FWUP_READY (R359) -/
  | fwupReady (part : Nat) (rounds : List (List (Nat × Nat)))
  /-- FWUP_SWITCH (R360) -/
  | fwupSwitch (src part : Nat)
  /-- FWUP_REVERT (R360) -/
  | fwupRevert (src part : Nat)
  /-- FWUP_ABORT (R360) -/
  | fwupAbort (src part : Nat)
  /-- FIRMWARE_BANK_SWITCH (R360) -/
  | firmwareBankSwitch (part : Nat)
  /-- SEC_REPORT (R372) -/
  | secReport (src : Nat) (nonce : Option (List Byte))
  /-- SEC_GET_CERT (R374) -/
  | secGetCert (src : Nat)
  /-- UNLOCK (R377) -/
  | unlock (src : Nat) (token : Option (List Byte))
  /-- RELOCK (R377) -/
  | relock (src : Nat)
  /-- SLOT_WRITE (R370) -/
  | slotWrite (src : Nat) (slotB : Bool) (bundle : Option (List Byte))
  /-- SLOT_WRITE_DONE (R370) -/
  | slotWriteDone (readBack : List Byte)
  /-- SVN_COMMIT (R371) -/
  | svnCommit (src : Nat)
  /-- RETURN (R378) -/
  | returnOrder (src : Nat)
  /-- RETURN_ERASE_DONE (R378) -/
  | returnEraseDone (failed : List Nat)
  /-- SEAL (R376) -/
  | seal (src : Nat)
  /-- MCTP_GET_REPORT (R375) -/
  | mctpGetReport (nonce : List Byte) (pmask : W32)
  /-- MCTP_GET_CERT (R375) -/
  | mctpGetCert
  /-- MCTP_UNLOCK (R375) -/
  | mctpUnlock (token : List Byte)
  /-- MCTP_RELOCK (R375) -/
  | mctpRelock
  /-- REPORT_SNAPSHOT (R372) -/
  | reportSnapshot
  /-- REPORT_SIGNED (R372) -/
  | reportSigned (dmaOk : Bool)
  /-- UNLOCK_EXPIRY (R377) -/
  | unlockExpiry
  /-- THERMAL_SAMPLE (R384) -/
  | thermalSample (readings : List (Nat × SensorRead))
  /-- THROTTLE_STEP (R386) -/
  | throttleStep (hub : Nat)
  /-- RATE_DIVIDER_STEP (R384) -/
  | rateDividerStep (hub : Nat)
  /-- POWER_AVERAGE (R387) -/
  | powerAverage
  /-- LEAK_DETECTED (R434) -/
  | leakDetected (ext int : Bool)
  /-- FLOW_UPDATE (R435) -/
  | flowUpdate
  /-- HBM_CE_RATE_CHECK (R425) -/
  | hbmCeRateCheck (stack : Nat)
  /-- REF_EN_WRITE (R395) -/
  | refEnWrite (src : Nat) (data : W32)
  /-- REF_READY (R395) -/
  | refReady
  /-- PRECISION_CONVERSION_DONE (R397) -/
  | precisionConversionDone (modulator : Nat) (raw : Int)
  /-- SAR_SAMPLE (R399) -/
  | sarSample (chan : Nat) (raw : Int)
  /-- GROUP_DUE (R402) -/
  | groupDue (group : Nat)
  /-- CAL_ZERO (R404) -/
  | calZero (src chan : Nat)
  /-- CAL_FULL (R404) -/
  | calFull (src chan : Nat)
  /-- CAL_ABANDON (R404) -/
  | calAbandon (src chan : Nat)
  /-- CONV_CAL_MEASURE_DONE (R405) -/
  | convCalMeasureDone (first second : Int)
  /-- CAL_FULL_TIMEOUT (R404) -/
  | calFullTimeout
  /-- SELF_CHECK (R406) -/
  | selfCheck (raw temp : Int)
  /-- ARM_WRITE (R418) -/
  | armWrite (src page : Nat) (data : W32)
  /-- ARM_EXPIRE (R418) -/
  | armExpire (src page : Nat)
  /-- INT_RAW_W1C (R412) -/
  | intRawW1c (src page : Nat) (data : W32)
  /-- INT_FORCE (R412) -/
  | intForce (src page : Nat) (data : W32)
  /-- INT_EN_WRITE (R413) -/
  | intEnWrite (src page : Nat) (data : W32)
  /-- IRQ_EN_WRITE (R413) -/
  | irqEnWrite (src page : Nat) (data : W32)
  /-- CAPT_CLR (R410) -/
  | captClr (src page : Nat)
  /-- LO_READ_LATCH (R417) -/
  | loReadLatch (src page offset : Nat)
  /-- CANCEL_LAT_READ (R245) -/
  | cancelLatRead (src : Nat)
  /-- POWER_READ (R391) -/
  | powerRead (src : Nat)
  /-- CONV_RESULT_READ (R409) -/
  | convResultRead (src chan : Nat)
  /-- REGISTER_WRITE (R415) -/
  | registerWrite (src page offset : Nat) (size : Nat) (data : W64)
  /-- FLOW_PULSE_EDGE (R435) -/
  | flowPulseEdge
  /-- WINDOW_WRITE (R330) -/
  | windowWrite (src part offset : Nat) (data : List Byte)
  deriving DecidableEq, Repr

end Sys2Proof
end

