-- ==== Sys2Proof/Machine/Operands.lean ====
section
/-! DEFINITION. Operand fields of the stroke-plan instructions: which registers of which class each field names, which
flag and immediate bits an entry uses, and the immediate values the manual calls invalid (R140, R152, R157, R181). -/

namespace Sys2Proof.Machine

/-- A register class of R139. -/
inductive Cls where
  | g | a | v | t | p
  deriving DecidableEq, Repr

/-- Registers in the class (R139). -/
def Cls.size : Cls → Nat
  | .g => 32 | .a => 16 | .v => 64 | .t => 8 | .p => 8

/-- A register group named by a field: class, first register, count. -/
structure RegRef where
  cls : Cls
  idx : Nat
  cnt : Nat
  deriving DecidableEq, Repr

/-- What an operand field holds: nothing (it must be 0), or a group of so many registers of a class. -/
abbrev FieldUse := Option (Cls × Nat)

/-- The uses of an instruction's fields (R157, R181). `immRegs` are the registers that immediate bits name, with whether
the instruction writes them; `destRead` says that the destination is also read. -/
structure OpSig where
  dest     : FieldUse
  src1     : FieldUse
  src2     : FieldUse
  flagMask : Nat
  immMask  : Nat
  immRegs  : List (RegRef × Bool)
  valid    : Bool
  destRead : Bool
  deriving DecidableEq, Repr

def fieldFlag (f : Fields) (i : Nat) : Bool := f.flags.getLsbD i
/-- Immediate bits [lo + w - 1 : lo] as a number. -/
def immBits (f : Fields) (lo w : Nat) : Nat := (f.imm.extractLsb' lo w).toNat

def g1 : FieldUse := some (.g, 1)
def a1 : FieldUse := some (.a, 1)
def vN (n : Nat) : FieldUse := some (.v, n)

def mkSig (dest src1 src2 : FieldUse) (flagMask immMask : Nat) (valid : Bool := true)
    (immRegs : List (RegRef × Bool) := []) (destRead : Bool := false) : OpSig :=
  { dest := dest, src1 := src1, src2 := src2, flagMask := flagMask, immMask := immMask, immRegs := immRegs,
    valid := valid, destRead := destRead }

/-- A transfer length of 64 bytes or more, a multiple of 64, at most `top` (R157). -/
def lenOk (n top : Nat) : Bool := decide (0 < n) && decide (n ≤ top) && n % 64 == 0

/-- The operand fields of each opcode (R157 for the instructions of R154, R181 for those of R180). -/
def opSig (c : Opcode) (f : Fields) : OpSig :=
  let b := immBits f
  match c with
  | .nop => mkSig none none none 0 0
  | .halt => mkSig none none none 0 0
  | .wstrk => mkSig none none none 0 0
  | .bar => mkSig none none none 0 0
  | .jmp => mkSig none (if fieldFlag f 0 then g1 else none) none 1 0x3FFF
  | .brp => mkSig none (some (.p, 1)) none 1 0x3FFF
  | .loop => mkSig none (if fieldFlag f 0 then g1 else none) none 1 0xFFFF3FFF (b 0 14 != 0)
  | .fence => mkSig none none none 0 0x3
  | .movsr => mkSig g1 none none 0 0x7 (b 0 3 != 7)
  | .li => mkSig g1 none none 1 0xFFFFFFFF true [] (fieldFlag f 0)
  | .alu => mkSig g1 g1 g1 0 0xF (decide (b 0 4 < 14))
  | .addi =>
    let k := (f.flags.extractLsb' 0 2).toNat
    mkSig (if k = 0 ∨ k = 3 then g1 else a1) (if k = 0 ∨ k = 1 then g1 else a1) none 3 0xFFFFFFFF
  | .cmp => mkSig (some (.p, 1)) g1 g1 1 0xFFFFFF07 (decide (b 0 3 < 6))
  | .sel => mkSig g1 g1 g1 0 0x7 true [(⟨.p, b 0 3, 1⟩, false)]
  | .aeval => mkSig (vN 2) (vN 1) g1 0 0x1F
  | .aevalb => mkSig (vN 4) (vN 2) g1 0 0xFFFF true [(⟨.p, b 8 3, 1⟩, true), (⟨.g, b 11 5, 1⟩, false)]
  | .athr => mkSig (vN 1) (vN 1) g1 0 0x7FF true [(⟨.v, b 5 6, 2⟩, false)]
  | .arange => mkSig none g1 none 0 0xF (decide (b 0 4 ≤ 11))
  | .arefc => mkSig g1 (vN 1) g1 0 0x1F
  | .achk => mkSig g1 none none 0 0xFFFFFFFF
  | .aproof => mkSig (vN 2) g1 none 0 0x1FF (decide (b 5 4 ≤ 11))
  | .qb4 => mkSig (vN 1) (vN (if fieldFlag f 0 then 4 else 8)) g1 7 0x1FFFFF true
      ([(⟨.g, b 0 5, 1⟩, true), (⟨.p, b 5 3, 1⟩, true)]
        ++ (if !fieldFlag f 1 && fieldFlag f 2 then [(⟨.g, b 16 5, 1⟩, false)] else []))
  | .qb8 => mkSig (vN 2) (vN (if fieldFlag f 0 then 4 else 8)) g1 1 0x1F true [(⟨.g, b 0 5, 1⟩, true)]
  | .dqc =>
    match (f.flags.extractLsb' 0 2).toNat with
    | 0 => mkSig (vN 1) (vN 2) none 3 0x7
    | 1 => mkSig (vN 1) (vN 4) none 3 0xFF true [(⟨.g, b 3 5, 1⟩, false)]
    | 2 => mkSig (vN 1) (vN 1) (vN 1) 3 0x1FF (decide (b 5 4 ≤ 11)) [(⟨.g, b 0 5, 1⟩, false)]
    | _ => mkSig (vN 1) (vN 1) none 3 0 false
  | .cvt =>
    match b 0 4 with
    | 0 => mkSig (vN 1) (vN 2) none 0 0xF
    | 1 => mkSig (vN 2) (vN 1) none 0 0xF
    | 2 => mkSig (vN 1) (vN 1) none 0 0xF
    | 3 => mkSig (vN 1) (vN 1) none 0 0xF
    | 4 => mkSig (vN 4) (vN 1) none 0 0xF
    | 5 => mkSig (vN 1) (vN 4) none 0 0xF
    | 6 => mkSig (vN 1) (vN 4) none 0 0xF
    | 7 => mkSig (vN 4) (vN 1) none 0 0xF
    | _ => mkSig (vN 1) (vN 1) none 0 0xF false
  | .ldv => mkSig (vN 1) a1 none 1 0xFFFFFFFF true
      (if fieldFlag f 0 then [(⟨.a, f.src1.toNat, 1⟩, true)] else [])
  | .stv => mkSig none a1 (vN 1) 1 0xFFFFFFFF true
      (if fieldFlag f 0 then [(⟨.a, f.src1.toNat, 1⟩, true)] else [])
  | .dmar => mkSig none a1 a1 0 0x1FFFFF (lenOk (b 0 21) 1572864)
  | .dmaw => mkSig none a1 a1 0 0x1FFFFF (lenOk (b 0 21) 1572864)
  | .mimg => mkSig none a1 a1 0 0x1FFFFF (lenOk (b 0 21) 1572864)
  | .kvap => mkSig none a1 a1 1 0xFFF (decide (1 ≤ b 5 7) && decide (b 5 7 ≤ 64)) [(⟨.g, b 0 5, 1⟩, false)]
  | .kvgt => mkSig none a1 a1 0 0x7FFFF (lenOk (b 0 19) 262144)
  | .send => mkSig none a1 g1 0 0xFFFF
  | .mcast => mkSig none a1 g1 0 0xFFFF
  | .recv => mkSig none a1 g1 0 0xFFFF
  | .lig =>
    if b 17 1 = 1 then
      mkSig (vN 1) none g1 0 0xFFFFFFFF (b 0 2 == 0 && (b 16 1 == 1 || b 18 14 == 0))
    else mkSig none (vN 1) g1 0 0xFFFFFFFF (b 0 2 == 0 && b 23 9 == 0)
  | .mma8 => mkSig (some (.t, 1)) (vN 1) (vN 1) 1 0 true [] (!fieldFlag f 0)
  | .mmah => mkSig (some (.t, 1)) (vN 1) (vN 1) 1 0 true [] (!fieldFlag f 0)
  | .mma4 => mkSig (some (.t, 1)) (vN 1) (vN 1) 1 0 true [] (!fieldFlag f 0)
  | .vfma => mkSig (vN 1) (vN 1) (vN 1) 0 0 true [] true
  | .valu =>
    let op := b 0 6
    mkSig (vN 1) (if op = 23 then some (.t, 1) else vN 1) (if op = 22 then g1 else vN 1) 0 0xFFF (decide (op < 24))
  | .vred => mkSig (if b 0 3 = 4 then some (.p, 1) else vN 1) (vN 1) none 0 0x7 (decide (b 0 3 < 5))
  | .vexp => mkSig (vN 1) (vN 1) none 1 0
  | .vrsq => mkSig (vN 1) (vN 1) none 0 0
  | .topk => mkSig (vN 2) (vN 2) (vN 1) 1 0x3FF (decide (1 ≤ b 0 7) && decide (b 0 7 ≤ 64)) [] (!fieldFlag f 0)
  | .samp => mkSig g1 (vN 2) (some (.g, 3)) 1 0x7F (decide (1 ≤ b 0 7) && decide (b 0 7 ≤ 64))
  | .reqn => mkSig (some (.g, 3)) g1 none 1 0
  | .toko => mkSig none g1 g1 0 0x3 (b 0 2 != 3)
  | .canq => mkSig (some (.p, 1)) g1 none 0 0
  | .spec => mkSig none g1 g1 0 0x1
  | .blot => mkSig none a1 g1 1 0x7FFF (decide (1 ≤ b 7 8) && decide (b 0 7 + b 7 8 ≤ 128))
  | .dgst => mkSig g1 (vN 1) none 0 0
  | .susp => mkSig none g1 none 1 0xFF
  | .fcpy => mkSig (vN 1) (vN 1) g1 0 0x7F true [(⟨.a, b 0 4, 1⟩, false)]

/-- A field names a group inside its class, or is 0 where the entry does not use it (R140, R152). -/
def fieldOk (u : FieldUse) (x : BitVec 6) : Bool :=
  match u with
  | none => x == 0#6
  | some (c, n) => decide (x.toNat + n ≤ c.size)

def regRefOk (r : RegRef) : Bool := decide (r.idx + r.cnt ≤ r.cls.size)

/-- The loader's checks of one instruction word (R152). -/
def opOk (c : Opcode) (f : Fields) : Bool :=
  let s := opSig c f
  fieldOk s.dest f.dest && fieldOk s.src1 f.src1 && fieldOk s.src2 f.src2
    && (f.flags.toNat &&& (7 - s.flagMask) == 0) && (f.imm.toNat &&& (0xFFFFFFFF - s.immMask) == 0)
    && s.immRegs.all (fun r => regRefOk r.1) && s.valid

def useRef (u : FieldUse) (x : BitVec 6) : List RegRef :=
  match u with
  | none => []
  | some (c, n) => [⟨c, x.toNat, n⟩]

/-- Register groups an instruction reads or writes: the scoreboard of R145 and R153 looks at every one. -/
def opRefs (c : Opcode) (f : Fields) : List RegRef :=
  let s := opSig c f
  useRef s.dest f.dest ++ useRef s.src1 f.src1 ++ useRef s.src2 f.src2 ++ s.immRegs.map (·.1)

/-- FCPY of a B8 slice reads a pair; the format is known at run time only (R209). -/
def RegRef.overlaps (x y : RegRef) : Bool :=
  x.cls == y.cls && decide (x.idx < y.idx + y.cnt) && decide (y.idx < x.idx + x.cnt)

end Sys2Proof.Machine
end

