-- ==== Sys2Proof/Decode.lean ====
section
/-! DEFINITION. Words: the table of operations gives no row any bits, so no word spells a command (log entry 8); the stroke
plan instructions have 64-bit words of their own (R152), which the plan loader reads. -/

namespace Sys2Proof

/-- The command that a word spells by the table's bits: none, since the table gives no row bits (log entry 8). -/
def decodeTableWord (_nbits _w : Nat) : Option Instr := none

namespace Machine

/-- Opcode of bits [63:56] (R154, R180); none for a code that is not assigned. -/
def opcodeOf (b : Nat) : Option Opcode :=
  match b with
  | 0x00 => some .nop | 0x01 => some .jmp | 0x02 => some .brp | 0x03 => some .loop | 0x04 => some .halt
  | 0x05 => some .wstrk | 0x06 => some .bar | 0x07 => some .fence | 0x08 => some .movsr
  | 0x10 => some .li | 0x11 => some .alu | 0x12 => some .addi | 0x13 => some .cmp | 0x14 => some .sel
  | 0x20 => some .aeval | 0x21 => some .aevalb | 0x22 => some .athr | 0x23 => some .arange | 0x24 => some .arefc
  | 0x25 => some .achk | 0x26 => some .aproof
  | 0x30 => some .qb4 | 0x31 => some .qb8 | 0x32 => some .dqc | 0x33 => some .cvt
  | 0x40 => some .ldv | 0x41 => some .stv | 0x42 => some .dmar | 0x43 => some .dmaw | 0x44 => some .kvap
  | 0x45 => some .kvgt | 0x46 => some .mimg
  | 0x50 => some .send | 0x51 => some .recv | 0x52 => some .lig | 0x53 => some .mcast
  | 0x60 => some .mma8 | 0x61 => some .mmah | 0x62 => some .mma4 | 0x63 => some .vfma | 0x64 => some .valu
  | 0x65 => some .vred | 0x66 => some .vexp | 0x67 => some .vrsq | 0x68 => some .topk | 0x69 => some .samp
  | 0x80 => some .reqn | 0x81 => some .toko | 0x82 => some .canq | 0x83 => some .spec
  | 0x90 => some .blot | 0x91 => some .dgst | 0x92 => some .susp | 0x93 => some .fcpy
  | _ => none

/-- The code of an opcode (R154, R180). -/
def opcodeCode : Opcode → Nat
  | .nop => 0x00 | .jmp => 0x01 | .brp => 0x02 | .loop => 0x03 | .halt => 0x04
  | .wstrk => 0x05 | .bar => 0x06 | .fence => 0x07 | .movsr => 0x08
  | .li => 0x10 | .alu => 0x11 | .addi => 0x12 | .cmp => 0x13 | .sel => 0x14
  | .aeval => 0x20 | .aevalb => 0x21 | .athr => 0x22 | .arange => 0x23 | .arefc => 0x24
  | .achk => 0x25 | .aproof => 0x26
  | .qb4 => 0x30 | .qb8 => 0x31 | .dqc => 0x32 | .cvt => 0x33
  | .ldv => 0x40 | .stv => 0x41 | .dmar => 0x42 | .dmaw => 0x43 | .kvap => 0x44
  | .kvgt => 0x45 | .mimg => 0x46
  | .send => 0x50 | .recv => 0x51 | .lig => 0x52 | .mcast => 0x53
  | .mma8 => 0x60 | .mmah => 0x61 | .mma4 => 0x62 | .vfma => 0x63 | .valu => 0x64
  | .vred => 0x65 | .vexp => 0x66 | .vrsq => 0x67 | .topk => 0x68 | .samp => 0x69
  | .reqn => 0x80 | .toko => 0x81 | .canq => 0x82 | .spec => 0x83
  | .blot => 0x90 | .dgst => 0x91 | .susp => 0x92 | .fcpy => 0x93

/-- The fields of an instruction word (R152): bits [55:50], [49:44], [43:38], [37:35], [34:32], [31:0]. -/
def fieldsOf (w : W64) : Fields :=
  { dest := w.extractLsb' 50 6, src1 := w.extractLsb' 44 6, src2 := w.extractLsb' 38 6, guard := w.extractLsb' 35 3,
    flags := w.extractLsb' 32 3, imm := w.extractLsb' 0 32 }

/-- An instruction word as the plan loader reads it: none where the loader's checks of one word refuse it (R152). -/
def decodeScribe (w : W64) : Option (Opcode × Fields) :=
  match opcodeOf (w.extractLsb' 56 8).toNat with
  | none => none
  | some c => if opOk c (fieldsOf w) then some (c, fieldsOf w) else none

/-- The instruction word of an opcode and its fields (R152). -/
def encodeScribe (c : Opcode) (f : Fields) : W64 :=
  BitVec.ofNat 8 (opcodeCode c) ++ f.dest ++ f.src1 ++ f.src2 ++ f.guard ++ f.flags ++ f.imm

end Machine

end Sys2Proof
end

