-- ==== Sys2Proof/Config.lean ====
section
/-! DEFINITION. What an implementation fixes, and the free values: what the manual leaves open (R46, R139 and the log's
entries that name them). A free value has no body, so nothing can be proved of its value. -/

namespace Sys2Proof.Config

/-- A fresh natural number below any use the model makes of it: the n-th value the manual leaves open.
Applied to the state's counter `freeCtr` (log entry 3). -/
opaque freeNat : Nat → Nat

/-- The value of a scalar register at the start of a job's first step, where R139 calls all of it undefined: the job's
start, the class (0 g, 1 a), the register's number, the logical core (log entry 4). -/
opaque freeReg64 : Nat → Nat → Nat → Nat → BitVec 64
/-- As `freeReg64`, for vector registers (class 0) and tile rows (class 1) (R139). -/
opaque freeReg2048 : Nat → Nat → Nat → Nat → BitVec 2048
/-- As `freeReg64`, for predicates (R139). -/
opaque freeBit : Nat → Nat → Nat → Nat → Bool

/-- Which way an inexact result is rounded where the manual states a real value and a register unit and no rounding
(a_A and b_A of R35 and R36, the spread of R284, ...): the k-th choice (log entry 5). -/
opaque freeRoundUp : Nat → Bool

/-- A byte of a partition's adapter pool that R76 gives no content: the partition, the offset (log entry 30). -/
opaque freePoolByte : Nat → Nat → BitVec 8
/-- Flits that a receive buffer of virtual channels 1 to 3 holds beside the first: R105 gives VC 0 four and names no other
depth (log entry 94). -/
opaque vcDepth : Nat → Nat

/-- The detours of the k-th route tables that the mesh controller computes: router, destination, output port (R106, R122; log entry 94). -/
opaque detours : Nat → List (Nat × Nat × Nat)

/-- Credits, in units of 4 slots, that a link port gives virtual channels 1 to 5 beside the first: R303 reserves 8 slots for VC 0 and
names no other number (log entry 105). -/
opaque linkCredits : Nat → Nat

/-- The hash of source core, destination core and TAG that chooses a port of a direction (R310; log entry 105). -/
opaque portHash : Nat → Nat → Nat → Nat

/-- BODY of the k-th message of types 4 to 11 that the device sends: R302 lays it out nowhere (log entry 105). -/
opaque messageBody : Nat → BitVec 256

/-- Row `i` of calibration vector `n`: R42 names 64 vectors and lists none (log entry 92). -/
opaque calDrive : Nat → Nat → Int

/-- Element `i` of the masters that training starts from at the k-th start: R69 names no first values (log entry 31). -/
opaque trimInit : Nat → Nat → BitVec 32
/-- An int4 element whose master row holds an infinity or a NaN: R69 names no value (log entry 31). -/
opaque trimElem : Nat → Int

/-- Whether a signature verifies under a public key (SLH-DSA of FIPS 205, R366, R368): key, message, signature. -/
opaque slhVerify : List (BitVec 8) → List (BitVec 8) → List (BitVec 8) → Bool
/-- The root keys and the unlock key in the security block's ROM (R366). -/
opaque rootKey : Nat → List (BitVec 8)
opaque unlockKey : List (BitVec 8)
/-- Byte `i` of the device identity key (R366). -/
opaque dikByte : Nat → BitVec 8
/-- Byte `i` of the signature by the device identity key over a message (R372). -/
opaque signByte : List (BitVec 8) → Nat → BitVec 8
/-- Byte `i` of Wigalyn's signature in the identity certificate (R374). -/
opaque certByte : Nat → BitVec 8

end Sys2Proof.Config
end

