-- ==== Sys2Proof/Machine/Digest.lean ====
section
/-! DEFINITION. SHAKE256, the digest of stroke plans, master images, firmware slots and reports (R132, R275, R368, R373):
Keccak-f[1600] as published in FIPS 202, which the manual names and does not repeat (log entry 6). -/

namespace Sys2Proof.Machine.Keccak

/-- Lane (x, y) of the state is element x + 5y. -/
abbrev St := List W64

def lane (s : St) (x y : Nat) : W64 := s.getD (x % 5 + 5 * (y % 5)) 0#64

def rotl (v : W64) (n : Nat) : W64 := v.rotateLeft n

/-- Rotation offsets, by x + 5y. -/
def rho : List Nat := [0, 1, 62, 28, 27, 36, 44, 6, 55, 20, 3, 10, 43, 25, 39, 41, 45, 15, 21, 8, 18, 2, 61, 56, 14]

def roundConsts : List W64 :=
  [0x0000000000000001#64, 0x0000000000008082#64, 0x800000000000808A#64, 0x8000000080008000#64,
   0x000000000000808B#64, 0x0000000080000001#64, 0x8000000080008081#64, 0x8000000000008009#64,
   0x000000000000008A#64, 0x0000000000000088#64, 0x0000000080008009#64, 0x000000008000000A#64,
   0x000000008000808B#64, 0x800000000000008B#64, 0x8000000000008089#64, 0x8000000000008003#64,
   0x8000000000008002#64, 0x8000000000000080#64, 0x000000000000800A#64, 0x800000008000000A#64,
   0x8000000080008081#64, 0x8000000000008080#64, 0x0000000080000001#64, 0x8000000080008008#64]

def theta (s : St) : St :=
  let c := (List.range 5).map (fun x => lane s x 0 ^^^ lane s x 1 ^^^ lane s x 2 ^^^ lane s x 3 ^^^ lane s x 4)
  let d := (List.range 5).map (fun x => c.getD ((x + 4) % 5) 0#64 ^^^ rotl (c.getD ((x + 1) % 5) 0#64) 1)
  (List.range 25).map (fun i => s.getD i 0#64 ^^^ d.getD (i % 5) 0#64)

/-- rho and pi together: lane (y, 2x + 3y) of the result is the rotated lane (x, y). -/
def rhoPi (s : St) : St :=
  (List.range 25).map (fun i =>
    let x' := i % 5
    let y' := i / 5
    let x := (x' + 3 * y') % 5
    rotl (lane s x x') (rho.getD (x + 5 * x') 0))

def chi (s : St) : St :=
  (List.range 25).map (fun i =>
    let x := i % 5
    let y := i / 5
    lane s x y ^^^ (~~~ lane s (x + 1) y &&& lane s (x + 2) y))

def iota (rc : W64) : St → St
  | [] => []
  | v :: vs => (v ^^^ rc) :: vs

def permute (s : St) : St := roundConsts.foldl (fun s rc => iota rc (chi (rhoPi (theta s)))) s

/-- Sponge rate of SHAKE256 in bytes. -/
def rate : Nat := 136

def leNat (bs : List Byte) : Nat := bs.foldr (fun b acc => b.toNat + 256 * acc) 0

def absorbBlock (s : St) (b : List Byte) : St :=
  permute ((List.range 25).map (fun i => s.getD i 0#64 ^^^ BitVec.ofNat 64 (leNat ((b.drop (8 * i)).take 8))))

def absorb : Nat → St → List Byte → St
  | 0, s, _ => s
  | n + 1, s, bs => absorb n (absorbBlock s (bs.take rate)) (bs.drop rate)

/-- Padding of SHAKE: 0x1F, zeros, and the top bit of the last byte of the block. -/
def pad (bs : List Byte) : List Byte :=
  let k := rate - bs.length % rate
  if k = 1 then bs ++ [0x9F#8] else bs ++ [0x1F#8] ++ List.replicate (k - 2) 0#8 ++ [0x80#8]

/-- The first 64 bytes of SHAKE256 output, as a little-endian number. -/
def shake256 (bs : List Byte) : BitVec 512 :=
  let p := pad bs
  let s := absorb (p.length / rate) (List.replicate 25 0#64) p
  BitVec.ofNat 512 ((s.take 8).foldr (fun v acc => v.toNat + 2 ^ 64 * acc) 0)

end Sys2Proof.Machine.Keccak
end

