-- ==== Sys2Proof/Machine/Table.lean ====
section
/-! DEFINITION. Finite tables and memories: lists in one canonical form, keys strictly rising. A table holds what differs
from a default that its user names; a memory lists no byte that is 0, so equal memories are equal lists. -/

namespace Sys2Proof.Machine

/-- A table: key and value pairs, keys strictly rising. -/
abbrev Tbl (α : Type) := List (Nat × α)

def Tbl.get? {α : Type} : Tbl α → Nat → Option α
  | [], _ => none
  | (k, v) :: rest, i => if k = i then some v else if i < k then none else Tbl.get? rest i

def Tbl.getD {α : Type} (t : Tbl α) (i : Nat) (d : α) : α := (Tbl.get? t i).getD d

def Tbl.set {α : Type} : Tbl α → Nat → α → Tbl α
  | [], i, x => [(i, x)]
  | (k, v) :: rest, i, x =>
    if k = i then (i, x) :: rest else if i < k then (i, x) :: (k, v) :: rest else (k, v) :: Tbl.set rest i x

def Tbl.erase {α : Type} : Tbl α → Nat → Tbl α
  | [], _ => []
  | (k, v) :: rest, i => if k = i then rest else if i < k then (k, v) :: rest else (k, v) :: Tbl.erase rest i

/-- The value at `i`, changed by `f`; nothing where there is none. -/
def Tbl.update {α : Type} (t : Tbl α) (i : Nat) (f : α → α) : Tbl α :=
  match Tbl.get? t i with
  | none => t
  | some x => Tbl.set t i (f x)

def Tbl.mapVal {α : Type} (f : Nat → α → α) (t : Tbl α) : Tbl α := t.map (fun (k, v) => (k, f k v))

/-! ### Memories -/

/-- A memory: canonical list of bytes; an unlisted address reads 0 (log entry 2). -/
abbrev Mem := List Host.Cell

/-- The byte at address `a`. -/
def Mem.read : Mem → Nat → Byte
  | [], _ => 0#8
  | (k, v) :: rest, a => if k = a then v else if a < k then 0#8 else Mem.read rest a

/-- Removes the entry at `a`. -/
def Mem.clear : Mem → Nat → Mem
  | [], _ => []
  | (k, v) :: rest, a => if k = a then rest else if a < k then (k, v) :: rest else (k, v) :: Mem.clear rest a

/-- Puts an entry at `a`. -/
def Mem.put : Mem → Nat → Byte → Mem
  | [], a, b => [(a, b)]
  | (k, v) :: rest, a, b =>
    if k = a then (a, b) :: rest else if a < k then (a, b) :: (k, v) :: rest else (k, v) :: Mem.put rest a b

/-- Writes one byte and keeps the form: writing 0 removes the entry. -/
def Mem.write (m : Mem) (a : Nat) (b : Byte) : Mem := if b = 0#8 then Mem.clear m a else Mem.put m a b

/-- `n` bytes from `a` on, lowest address first. -/
def Mem.readBytes (m : Mem) (a n : Nat) : List Byte := (List.range n).map (fun k => Mem.read m (a + k))

/-- Writes bytes from `a` on, lowest address first. -/
def Mem.writeBytes (m : Mem) (a : Nat) : List Byte → Mem
  | [] => m
  | b :: bs => Mem.writeBytes (Mem.write m a b) (a + 1) bs

/-- The number that little-endian bytes stand for (R9). -/
def leNat : List Byte → Nat
  | [] => 0
  | b :: bs => b.toNat + 256 * leNat bs

/-- The low `k` bytes of a number, least first (R9). -/
def leBytes : Nat → Nat → List Byte
  | 0, _ => []
  | k + 1, n => BitVec.ofNat 8 n :: leBytes k (n / 256)

/-- The canonical form: addresses strictly rising, no byte 0. -/
def Mem.wf : Mem → Bool
  | [] => true
  | [(_, v)] => v != 0#8
  | (k, v) :: (k', v') :: rest => v != 0#8 && decide (k < k') && Mem.wf ((k', v') :: rest)

end Sys2Proof.Machine
end

