-- ==== Sys2Proof/Machine/Manifest.lean ====
section
/-! DEFINITION. Manifests and bundles (R366 to R368). -/

namespace Sys2Proof.Machine

/-- `n` bytes from offset `a` on; bytes beyond the end read 0. -/
def bytesAt (bs : List Byte) (a n : Nat) : List Byte :=
  let t := (bs.drop a).take n
  t ++ List.replicate (n - t.length) 0#8

/-- Little-endian number of `n` bytes at offset `a`. -/
def numAt (bs : List Byte) (a n : Nat) : Nat := leNat (bytesAt bs a n)

def zeroAt (bs : List Byte) (a n : Nat) : Bool := (bytesAt bs a n).all (· == 0#8)

/-- A digest of this manual: SHAKE256 with 32 bytes of output (R366), as a little-endian number. -/
def digest32 (bs : List Byte) : BitVec 256 := (Keccak.shake256 bs).extractLsb' 0 256

/-- The 32 bytes at an offset as a digest. -/
def digestAt (bs : List Byte) (a : Nat) : BitVec 256 := BitVec.ofNat 256 (numAt bs a 32)

def manifestLen : Nat := 61832
def sigLen : Nat := 29792

def mfVersion (bs : List Byte) : Nat := numAt bs 0x8 4
def mfSvn (bs : List Byte) : Nat := numAt bs 0xC 4
def mfKeySvn (bs : List Byte) : Nat := numAt bs 0x8C0 4
def mfRoot (bs : List Byte) : Nat := numAt bs 0x7 1
def mfRevoke (bs : List Byte) : Nat := numAt bs 0x14 1
def mfBootLen (bs : List Byte) : Nat := numAt bs 0x10 4
/-- Digest of the manifest itself (R372). -/
def mfDigest (bs : List Byte) : BitVec 256 := digest32 (bytesAt bs 0 manifestLen)
/-- The core image of a bundle: 262,144 bytes at 0x1_0000 (R367). -/
def coreImage (bs : List Byte) : List Byte := bytesAt bs 0x10000 262144
/-- Chunk `c` of a core image (R358). -/
def chunkOf (image : List Byte) (c : Nat) : List Byte := bytesAt image (4096 * c) 4096

/-- Step 1 of R368: MAGIC, FORMAT, KIND, reserved fields, the fields' ranges (R367) and the device's stepping bit. -/
def mfForm (bs : List Byte) (kind ttid : Nat) : Bool :=
  bytesAt bs 0 4 == [0x46#8, 0x5A#8, 0x4D#8, 0x46#8]
  && numAt bs 4 2 == 1 && numAt bs 6 1 == kind && decide (mfRoot bs < 4)
  && decide (mfSvn bs < 64) && decide (mfKeySvn bs < 64)
  && zeroAt bs 0x15 3 && zeroAt bs 0x3A 70 && zeroAt bs 0x8C4 4 && decide (numAt bs 0x38 2 < 4)
  && (numAt bs 0x38 2).testBit (if ttid = 0xB1 then 0 else 1)
  && (if kind = 1 then
        decide (4096 ≤ mfBootLen bs) && decide (mfBootLen bs ≤ 4194304) && mfBootLen bs % 4096 == 0
        && decide (mfRevoke bs < 16)
      else mfBootLen bs == 0 && mfRevoke bs == 0 && zeroAt bs 0x18 32)

/-- Step 5 of R368: the boot image and every chunk match their digests. -/
def mfDigests (bs : List Byte) (kind : Nat) : Bool :=
  (kind != 1 || digest32 (bytesAt bs 0x50000 (mfBootLen bs)) == digestAt bs 0x18)
  && (List.range 64).all (fun c => digest32 (chunkOf (coreImage bs) c) == digestAt bs (0x80 + 32 * c))

/-- Verification of a bundle in the order of R368, with the result codes of R379: 0 OK, 1 BAD_SIG, 8 REVOKED, 6 ROLLBACK,
2 BAD_DIGEST. -/
def verifyBundle (bs : List Byte) (kind ttid revoked fwSvn keySvn : Nat) : Nat :=
  if !mfForm bs kind ttid then 1
  else if revoked.testBit (mfRoot bs) then 8
  else if !Config.slhVerify (Config.rootKey (mfRoot bs)) (bytesAt bs 0x880 0x48) (bytesAt bs 0x8C8 sigLen) then 1
  else if !Config.slhVerify (bytesAt bs 0x880 64) (bytesAt bs 0 0x7D28) (bytesAt bs 0x7D28 sigLen) then 1
  else if mfKeySvn bs < keySvn ∨ mfSvn bs < fwSvn then 6
  else if !mfDigests bs kind then 2
  else 0

end Sys2Proof.Machine
end

