-- ==== Sys2Proof/Machine/RegTable.lean ====
section
/-! DEFINITION. The registers of every page from offset 0x040 on, as the field tables of the manual give them: offset,
access type of the bits and reset value of the writable bits. The value of a read-only bit stands in the state of its
block. -/

namespace Sys2Proof.Machine

/-- A register of a page, or `count` registers `stride` bytes apart: RW bits, RWA bits, W1S bits, whether it is write
only, and the reset value of its RW and RWA bits (R415). A register without any of these bits is RO in every field. -/
structure RegRow where
  off    : Nat
  stride : Nat
  count  : Nat
  rw     : Nat
  rwa    : Nat
  w1s    : Nat
  wo     : Bool
  rst    : Nat
  deriving DecidableEq, Repr

/-- One register. -/
def reg (off rw : Nat) (rst : Nat := 0) (rwa : Nat := 0) (w1s : Nat := 0) (wo : Bool := false) : RegRow :=
  { off := off, stride := 4, count := 1, rw := rw, rwa := rwa, w1s := w1s, wo := wo, rst := rst }
/-- A register of each of `count` instances. -/
def regs (off stride count rw : Nat) (rst : Nat := 0) (w1s : Nat := 0) : RegRow :=
  { off := off, stride := stride, count := count, rw := rw, rwa := 0, w1s := w1s, wo := false, rst := rst }

/-- Registers of DEV pages. -/
def regsDev : List RegRow := [
  reg 0x040 0x0,                                     -- DEV.IDENT
  reg 0x044 0x0,                                     -- DEV.STEPPING
  reg 0x048 0x0,                                     -- DEV.CAPS
  reg 0x04c 0x0,                                     -- DEV.EVSUM_G0
  reg 0x050 0x0,                                     -- DEV.EVSUM_G1
  reg 0x054 0x0,                                     -- DEV.EVSUM_P
  reg 0x058 0x0,                                     -- DEV.ERRSUM_G0
  reg 0x05c 0x0,                                     -- DEV.ERRSUM_G1
  reg 0x060 0x0 ]                                    -- DEV.ERRSUM_P

/-- Registers of BRING pages. -/
def regsBring : List RegRow := [
  reg 0x040 0x1f 0x0 0x0 0x80000000,                 -- BRING.STEP_CMD
  reg 0x044 0x0,                                     -- BRING.STEP_STAT
  reg 0x048 0x0,                                     -- BRING.DONE_MAP
  reg 0x04c 0x0,                                     -- BRING.DETAIL
  reg 0x050 0x0,                                     -- BRING.ELAPSED
  reg 0x054 0x3,                                     -- BRING.TMO
  reg 0x058 0x0,                                     -- BRING.RETAIN
  reg 0x05c 0x0,                                     -- BRING.FW_STAT
  reg 0x060 0x1f,                                    -- BRING.REC_SEL
  reg 0x064 0x0,                                     -- BRING.REC_ED_LO
  reg 0x068 0x0,                                     -- BRING.REC_ED_HI
  reg 0x06c 0x0,                                     -- BRING.REC_ARR
  reg 0x070 0xfffff000,                              -- BRING.FWUP_ADDR_LO
  reg 0x074 0xffffffff,                              -- BRING.FWUP_ADDR_HI
  reg 0x078 0xff 0x0 0x0 0x80000000,                 -- BRING.FWUP_CMD
  reg 0x07c 0xffffffff,                              -- BRING.FWUP_AT_LO
  reg 0x080 0xffffffff,                              -- BRING.FWUP_AT_HI
  reg 0x084 0x0,                                     -- BRING.FWUP_STAT
  reg 0x088 0x1f,                                    -- BRING.FW_SEL
  reg 0x08c 0x0,                                     -- BRING.FW_ACT
  reg 0x090 0x0 ]                                    -- BRING.FW_STBY

/-- Registers of CLOCK pages. -/
def regsClock : List RegRow := [
  reg 0x040 0x0,                                     -- CLOCK.DOM_EN
  reg 0x044 0x0,                                     -- CLOCK.DOM_LOCK
  reg 0x048 0x1f,                                    -- CLOCK.DOM_SEL
  reg 0x04c 0x0 ]                                    -- CLOCK.DOM_STAT

/-- Registers of STROKE pages. -/
def regsStroke : List RegRow := [
  reg 0x040 0x3fffff 0x9c40,                         -- STROKE.PERIOD_NEXT
  reg 0x044 0xffffffff 0x28191008,                   -- STROKE.LAYOUT_NEXT
  reg 0x048 0xffffffff,                              -- STROKE.SWITCH_LO
  reg 0x04c 0xffffffff,                              -- STROKE.SWITCH_HI
  reg 0x050 0x0,                                     -- STROKE.PERIOD_ACT
  reg 0x054 0x0,                                     -- STROKE.LAYOUT_ACT
  reg 0x058 0x0,                                     -- STROKE.NUM_LO
  reg 0x05c 0x0,                                     -- STROKE.NUM_HI
  reg 0x060 0xffffffff,                              -- STROKE.EPOCH_LO
  reg 0x064 0xffff,                                  -- STROKE.EPOCH_HI
  reg 0x068 0x0,                                     -- STROKE.TSTAT
  reg 0x06c 0x7ff 0x3e8,                             -- STROKE.HOLD
  reg 0x070 0x0 0x0 0x0 0x3f,                        -- STROKE.CMD
  regs 0x100 0x20 32 0xfff7 0x4084,                  -- STROKE.PPOLp
  regs 0x104 0x20 32 0x0,                            -- STROKE.PSTEPp_LO
  regs 0x108 0x20 32 0x0,                            -- STROKE.PSTEPp_HI
  regs 0x10c 0x20 32 0x0,                            -- STROKE.PSPANp
  regs 0x110 0x20 32 0x0,                            -- STROKE.PBROADp
  regs 0x114 0x20 32 0x0,                            -- STROKE.PSLACKp
  regs 0x118 0x20 32 0x0 0x0 0x80000000 ]            -- STROKE.PHALTp

/-- Registers of MESH pages. -/
def regsMesh : List RegRow := [
  reg 0x040 0x0,                                     -- MESH.POOL
  reg 0x044 0x3ff,                                   -- MESH.REMAP_SEL
  reg 0x048 0x0,                                     -- MESH.REMAP_DATA
  reg 0x04c 0x0,                                     -- MESH.RT_VER
  reg 0x050 0x0 0x0 0x80003fff,                      -- MESH.FENCE_CMD
  reg 0x054 0x0 0 0 0 true,                          -- MESH.ARM
  reg 0x058 0x0,                                     -- MESH.FENCE_STAT
  reg 0x05c 0x0,                                     -- MESH.FAULT_LAST
  reg 0x060 0x0 ]                                    -- MESH.LINKS_DOWN

/-- Registers of REGION pages. -/
def regsRegion : List RegRow := [
  reg 0x040 0x0,                                     -- REGION.CLK
  reg 0x044 0x0,                                     -- REGION.XMODE
  reg 0x048 0x0,                                     -- REGION.XSWITCH
  reg 0x04c 0x0 ]                                    -- REGION.CORES

/-- Registers of HBM pages. -/
def regsHbm : List RegRow := [
  reg 0x040 0x0,                                     -- HBM.STAT
  reg 0x044 0x0,                                     -- HBM.ECC_CE
  reg 0x048 0x0,                                     -- HBM.ECC_UE
  reg 0x04c 0x0,                                     -- HBM.ERR_ADDR_LO
  reg 0x050 0x0,                                     -- HBM.ERR_ADDR_HI
  reg 0x054 0x0,                                     -- HBM.ERR_INFO
  reg 0x058 0xffff 0x100,                            -- HBM.CE_TH
  reg 0x05c 0x0,                                     -- HBM.BW
  reg 0x060 0x0 ]                                    -- HBM.TEMP

/-- Registers of LINK pages. -/
def regsLink : List RegRow := [
  reg 0x040 0x0,                                     -- LINK.PSTAT
  reg 0x044 0x0,                                     -- LINK.PEER
  reg 0x048 0x1 0x0 0x0 0x2,                         -- LINK.PCTRL
  reg 0x04c 0x0,                                     -- LINK.FEC
  reg 0x050 0x0,                                     -- LINK.ERR
  reg 0x054 0x0,                                     -- LINK.DOWNS
  reg 0x100 0x0,                                     -- LINK.COORD
  reg 0x104 0x0,                                     -- LINK.BUDDY
  reg 0x108 0x0,                                     -- LINK.GROW
  reg 0x10c 0x0,                                     -- LINK.GROW_AT_LO
  reg 0x110 0x0,                                     -- LINK.GROW_AT_HI
  reg 0x114 0x0,                                     -- LINK.RT
  reg 0x118 0x0,                                     -- LINK.DIRS
  reg 0x11c 0x0,                                     -- LINK.DISCARD
  reg 0x120 0x1f,                                    -- LINK.JOB_SEL
  reg 0x124 0x1fff1fff,                              -- LINK.JOB_BLOCK
  reg 0x128 0x1fff,                                  -- LINK.JOB_ENTRY
  reg 0x12c 0xfff01 0x20000,                         -- LINK.PAIR_CFG
  reg 0x130 0x0,                                     -- LINK.PAIR_STAT
  reg 0x134 0x0 ]                                    -- LINK.MIRROR

/-- Registers of THERM pages. -/
def regsTherm : List RegRow := [
  reg 0x040 0x0,                                     -- THERM.MAX
  reg 0x044 0x1ff,                                   -- THERM.SEL
  reg 0x048 0x0,                                     -- THERM.READ
  reg 0x04c 0xfffffff 0x573695f,                     -- THERM.LIMITS
  reg 0x050 0xffffff 0x695f55,                       -- THERM.LIMITS_MEM
  reg 0x054 0xffff 0xa32,                            -- THERM.RISE
  reg 0x058 0xf 0x1,                                 -- THERM.STEP
  reg 0x05c 0x0,                                     -- THERM.CAP
  reg 0x060 0x0,                                     -- THERM.POWER
  reg 0x064 0x0,                                     -- THERM.SHUT_LAST
  reg 0x068 0x0,                                     -- THERM.COUNT
  regs 0x100 0x10 8 0x0,                             -- THERM.HUBr_MAX
  regs 0x104 0x10 8 0x0,                             -- THERM.HUBr_DIV
  reg 0x070 0x0,                                     -- THERM.FLOW
  reg 0x074 0xffff 0x1f4,                            -- THERM.FLOW_CFG
  reg 0x078 0x0 ]                                    -- THERM.LEAK

/-- Registers of CONV pages. -/
def regsConv : List RegRow := [
  reg 0x040 0x1,                                     -- CONV.REF
  reg 0x044 0xfffff 0xfffff,                         -- CONV.SEQ
  reg 0x048 0xfffffff,                               -- CONV.GRP0
  reg 0x04c 0xfffffff,                               -- CONV.GRP1
  reg 0x050 0x0,                                     -- CONV.COOLANT
  reg 0x054 0x0 0x0 0x8000007f,                      -- CONV.CAL_CMD
  reg 0x058 0x0 0 0 0 true,                          -- CONV.ARM
  reg 0x05c 0x0,                                     -- CONV.CAL_STAT
  reg 0x060 0x1ff 0x10a,                             -- CONV.SELF
  reg 0x064 0x3ffff 0x27120,                         -- CONV.DROOP
  regs 0x100 0x10 20 0xff1f 0x4401,                  -- CONV.CHn_CFG
  regs 0x104 0x10 20 0x0,                            -- CONV.CHn_RES
  regs 0x108 0x10 20 0x0,                            -- CONV.CHn_STAMP
  regs 0x10c 0x10 20 0xffffffff ]                    -- CONV.CHn_LIM

/-- Registers of SEC pages. -/
def regsSec : List RegRow := [
  reg 0x040 0x0,                                     -- SEC.LC_STAT
  reg 0x044 0x0,                                     -- SEC.SVN
  reg 0x048 0x0,                                     -- SEC.SERIAL_LO
  reg 0x04c 0x0,                                     -- SEC.SERIAL_HI
  reg 0x050 0x0 0x0 0x8000001f,                      -- SEC.CMD
  reg 0x054 0x0 0 0 0 true,                          -- SEC.ARM
  reg 0x058 0xfffff000,                              -- SEC.ADDR_LO
  reg 0x05c 0xffffffff,                              -- SEC.ADDR_HI
  reg 0x060 0xffffffff 0xffffffff,                   -- SEC.PMASK
  reg 0x064 0xffffffff,                              -- SEC.CONFIRM
  reg 0x068 0x0,                                     -- SEC.STAT
  reg 0x06c 0x1,                                     -- SEC.FW_CFG
  reg 0x070 0x0 ]                                    -- SEC.UNLOCK_LEFT

/-- Registers of INTEG pages. -/
def regsInteg : List RegRow := [
  reg 0x040 0x1ffff 0x11c00,                         -- INTEG.CFG
  reg 0x044 0x1fffffff 0x140f4240,                   -- INTEG.PROOF_CFG
  reg 0x048 0x7ff 0x0 0x0 0x80000000,                -- INTEG.PROOF_NEXT
  reg 0x04c 0x0,                                     -- INTEG.PROOF_STAT
  reg 0x050 0x0,                                     -- INTEG.PROOF_CNT
  reg 0x054 0x0,                                     -- INTEG.SAMPLE_STAT
  reg 0x058 0x0,                                     -- INTEG.SUSP_CNT
  reg 0x05c 0x0,                                     -- INTEG.PERM_CNT
  reg 0x060 0x0,                                     -- INTEG.LAST_SUSP
  reg 0x064 0x0,                                     -- INTEG.LAST_STROKE_LO
  reg 0x068 0x0,                                     -- INTEG.LAST_STROKE_HI
  reg 0x06c 0x0,                                     -- INTEG.HOLD
  reg 0x070 0xffffffc0,                              -- INTEG.TAINT_LO
  reg 0x074 0xffffffff,                              -- INTEG.TAINT_HI
  reg 0x078 0xffff,                                  -- INTEG.TAINT_LEN
  reg 0x07c 0x0,                                     -- INTEG.TAINT_PROD
  reg 0x080 0xffffffff,                              -- INTEG.TAINT_CONS
  reg 0x084 0x1f,                                    -- INTEG.FROZEN_SEL
  reg 0x088 0x0 0x0 0x0 0x80000000,                  -- INTEG.FROZEN
  reg 0x08c 0x0,                                     -- INTEG.PAGES
  reg 0x090 0x0 ]                                    -- INTEG.LAST_CAUSE

/-- Registers of WEIGHT pages. -/
def regsWeight : List RegRow := [
  reg 0x040 0xfffff000,                              -- WEIGHT.IMG_ADDR_LO
  reg 0x044 0xffffffff,                              -- WEIGHT.IMG_ADDR_HI
  reg 0x048 0xffffff,                                -- WEIGHT.IMG_LEN
  reg 0x04c 0x0 0x0 0x83ffffff,                      -- WEIGHT.CMD
  reg 0x050 0x0 0 0 0 true,                          -- WEIGHT.ARM
  reg 0x054 0xffffffff,                              -- WEIGHT.ROLL_AT_LO
  reg 0x058 0xffffffff,                              -- WEIGHT.ROLL_AT_HI
  reg 0x05c 0x0,                                     -- WEIGHT.STAT
  reg 0x060 0x0,                                     -- WEIGHT.PROG_STAT
  reg 0x064 0xffff007f 0x3330030,                    -- WEIGHT.WCFG
  reg 0x068 0x1f,                                    -- WEIGHT.ED_SEL
  reg 0x06c 0x0,                                     -- WEIGHT.ED_CUR_LO
  reg 0x070 0x0,                                     -- WEIGHT.ED_CUR_HI
  reg 0x074 0x0,                                     -- WEIGHT.ED_NEXT_LO
  reg 0x078 0x0,                                     -- WEIGHT.ED_NEXT_HI
  reg 0x07c 0x0,                                     -- WEIGHT.ED_STAT
  reg 0x080 0xffff,                                  -- WEIGHT.ARR_SEL
  reg 0x084 0x0,                                     -- WEIGHT.ARR_STATE
  reg 0x088 0x0,                                     -- WEIGHT.ARR_TILE
  reg 0x08c 0x0,                                     -- WEIGHT.ARR_WEAR
  reg 0x090 0x0,                                     -- WEIGHT.ARR_ED_LO
  reg 0x094 0x0,                                     -- WEIGHT.ARR_ED_HI
  reg 0x098 0x0,                                     -- WEIGHT.WEAR_MAX
  reg 0x09c 0x0 ]                                    -- WEIGHT.REFRESH_CNT

/-- Registers of SERVE pages. -/
def regsServe : List RegRow := [
  reg 0x040 0x0,                                     -- SERVE.SLOT_FREE
  reg 0x044 0x0,                                     -- SERVE.HANDLE_FREE
  reg 0x048 0x0,                                     -- SERVE.PAGE_TOTAL
  reg 0x04c 0x0,                                     -- SERVE.PAGE_FREE
  reg 0x050 0x0,                                     -- SERVE.INTAKE_CNT
  reg 0x054 0x0,                                     -- SERVE.CANCEL_CNT
  reg 0x058 0x0 ]                                    -- SERVE.CANCEL_LAT

/-- Registers of CAL pages. -/
def regsCal : List RegRow := [
  reg 0x040 0x0 0x0 0x807fffff,                      -- CAL.CMD
  reg 0x044 0x0 0 0 0 true,                          -- CAL.ARM
  reg 0x048 0x0,                                     -- CAL.STAT
  reg 0x04c 0x0,                                     -- CAL.RESULT
  reg 0x050 0x0,                                     -- CAL.LAST
  reg 0x060 0x1f,                                    -- CAL.TA_PART
  reg 0x064 0xffffffff,                              -- CAL.TA_PROJ
  reg 0x068 0x3f 0x20,                               -- CAL.TA_CTRL
  reg 0x06c 0x0 ]                                    -- CAL.TA_STAT

/-- Registers of PART pages. -/
def regsPart : List RegRow := [
  reg 0x040 0x1f,                                    -- PART.SEL
  reg 0x044 0x1fffff,                                -- PART.CORES
  reg 0x048 0xffffffff,                              -- PART.SLOTS
  reg 0x04c 0x7fff,                                  -- PART.HANDLES
  reg 0x050 0x3fffff,                                -- PART.PAGES
  reg 0x054 0xfffff,                                 -- PART.SCRATCH
  reg 0x058 0xffff,                                  -- PART.ADAPT
  reg 0x05c 0xffff,                                  -- PART.IMAGE
  reg 0x060 0xffffffff 0x10101010,                   -- PART.SHARE0
  reg 0x064 0xffff 0x1010,                           -- PART.SHARE1
  reg 0x068 0x0 0x0 0x8000000f,                      -- PART.CMD
  reg 0x06c 0x0 0 0 0 true,                          -- PART.ARM
  reg 0x070 0x0,                                     -- PART.STAT
  reg 0x074 0x0,                                     -- PART.HBM_FREE
  reg 0x078 0x0,                                     -- PART.CORES_FREE
  reg 0x07c 0x7fffff ]                               -- PART.WIN

/-- Registers of CORE pages. -/
def regsCore : List RegRow := [
  reg 0x380 0xfff7 0x4047,                           -- CORE.ARR_GCTRL
  reg 0x384 0xffff 0xc30,                            -- CORE.ARR_CHKCFG
  reg 0x388 0x0,                                     -- CORE.ARR_BUSY
  reg 0x38c 0x0,                                     -- CORE.ARR_FENCED
  reg 0x390 0x0,                                     -- CORE.ARR_CHKFAIL
  reg 0x394 0x0,                                     -- CORE.ARR_UNCHK
  reg 0x398 0x0,                                     -- CORE.ARR_TRIMSTAT
  reg 0x39c 0x0,                                     -- CORE.ARR_TCAL
  regs 0x400 0x20 32 0x1f,                           -- CORE.ARRn_CFG
  regs 0x404 0x20 32 0x0,                            -- CORE.ARRn_STAT
  regs 0x408 0x20 32 0x0,                            -- CORE.ARRn_GAIN
  regs 0x40c 0x20 32 0x0,                            -- CORE.ARRn_OFFS
  regs 0x410 0x20 32 0xffff0000 0x4000000,           -- CORE.ARRn_DRIFT
  regs 0x414 0x20 32 0x0,                            -- CORE.ARRn_CHK
  regs 0x418 0x20 32 0x0,                            -- CORE.ARRn_EVCNT
  regs 0x41c 0x20 32 0x0,                            -- CORE.ARRn_TTRK
  reg 0x040 0x0,                                     -- CORE.CSTAT
  reg 0x044 0x0,                                     -- CORE.SRAM_ERR
  reg 0x048 0x0,                                     -- CORE.SRAM_LAST
  reg 0x04c 0x0,                                     -- CORE.ENG_ERR
  reg 0x050 0x0,                                     -- CORE.RTR_STAT
  reg 0x054 0x0,                                     -- CORE.RTR_ERR
  reg 0x058 0x0 ]                                    -- CORE.LIG_STAT

/-- Registers of FUNC pages. -/
def regsFunc : List RegRow := [
  reg 0x040 0x3f 0x3c,                               -- FUNC.VEC_CFG
  reg 0x044 0xffffff 0x3210,                         -- FUNC.MOD_SCROLL
  reg 0x048 0xffffff 0x1408,                         -- FUNC.MOD_CQ
  reg 0x04c 0x3ffff,                                 -- FUNC.WIN
  reg 0x050 0x0,                                     -- FUNC.SHARE0
  reg 0x054 0x0,                                     -- FUNC.SHARE1
  reg 0x058 0x0 0x0 0x0 0x80000000,                  -- FUNC.RESET_STAT
  reg 0x05c 0x0 ]                                    -- FUNC.OWNED

/-- Registers of REQ pages. -/
def regsReq : List RegRow := [
  reg 0x040 0xfffff000,                              -- REQ.RING_LO
  reg 0x044 0xffffffff,                              -- REQ.RING_HI
  reg 0x048 0xfff1f 0x1000a,                         -- REQ.RING_CFG
  reg 0x04c 0xfffffff8,                              -- REQ.HEAD_PTR_LO
  reg 0x050 0xffffffff,                              -- REQ.HEAD_PTR_HI
  reg 0x054 0xfffffff8,                              -- REQ.TAIL_PTR_LO
  reg 0x058 0xffffffff,                              -- REQ.TAIL_PTR_HI
  reg 0x05c 0x0,                                     -- REQ.RING_TAIL
  reg 0x060 0xfffff000,                              -- REQ.CQ_LO
  reg 0x064 0xffffffff,                              -- REQ.CQ_HI
  reg 0x068 0x1f 0xc,                                -- REQ.CQ_CFG
  reg 0x06c 0xffffffff,                              -- REQ.CQ_CONS
  reg 0x070 0x0,                                     -- REQ.CQ_PROD
  reg 0x078 0 0 0 0 true,                            -- REQ.ORDER
  reg 0x07c 0 0 0 0 true,                            -- REQ.ORDER (high half)
  reg 0x080 0 0 0 0 true,                            -- REQ.HORDER
  reg 0x084 0 0 0 0 true,                            -- REQ.HORDER (high half)
  reg 0x088 0xffffff03 0xea6000,                     -- REQ.PAUSE_CFG
  reg 0x08c 0xfffffff 0x1000200,                     -- REQ.LIST_CFG
  reg 0x090 0xffff 0x20b,                            -- REQ.POS_MAX
  reg 0x094 0xffffffff,                              -- REQ.SCR_PARAM
  reg 0x098 0xffffffff,                              -- REQ.SCR_TOKEN
  reg 0x09c 0xffffffff,                              -- REQ.SCR_KVMAP
  reg 0x0a0 0x1fffff 0x4001,                         -- REQ.KV_CFG
  reg 0x0a4 0x0,                                     -- REQ.SLOT_BASE
  reg 0x0a8 0x0,                                     -- REQ.SLOT_CNT
  reg 0x0ac 0x0,                                     -- REQ.SLOT_USE
  reg 0x0b0 0x0,                                     -- REQ.PAGE_FREE
  reg 0x0b4 0x0,                                     -- REQ.HANDLES
  reg 0x0b8 0x0,                                     -- REQ.WAIT_CNT
  reg 0x0bc 0x0,                                     -- REQ.SCROLL_ERR
  reg 0x0c0 0xffff,                                  -- REQ.SLOT_SEL
  reg 0x0c4 0x0,                                     -- REQ.SLOT_STAT
  reg 0x0c8 0x0 ]                                    -- REQ.SLOT_SEQ

/-- Registers of ADAPT pages. -/
def regsAdapt : List RegRow := [
  reg 0x040 0xfffff000,                              -- ADAPT.LOAD_ADDR_LO
  reg 0x044 0xffffffff,                              -- ADAPT.LOAD_ADDR_HI
  reg 0x048 0xfff 0x0 0x0 0x80000000,                -- ADAPT.LOAD_CMD
  reg 0x04c 0x0,                                     -- ADAPT.LOAD_STAT
  reg 0x050 0x0,                                     -- ADAPT.SLOT_USE
  reg 0x054 0x0 ]                                    -- ADAPT.POOL_FREE

/-- Registers of PLAN pages. -/
def regsPlan : List RegRow := [
  reg 0x040 0xfffff000,                              -- PLAN.ADDR_LO
  reg 0x044 0xffffffff,                              -- PLAN.ADDR_HI
  reg 0x048 0x1fffffff,                              -- PLAN.LEN
  reg 0x04c 0xf 0x0 0x0 0x80000000,                  -- PLAN.CMD
  reg 0x050 0xffffffff,                              -- PLAN.START_LO
  reg 0x054 0xffffffff,                              -- PLAN.START_HI
  reg 0x058 0xffffffff,                              -- PLAN.JOB
  reg 0x05c 0x0,                                     -- PLAN.STAT
  reg 0x060 0x0,                                     -- PLAN.BIND
  reg 0x064 0x0,                                     -- PLAN.CP
  reg 0x068 0x0,                                     -- PLAN.LIMIT
  reg 0x06c 0x0,                                     -- PLAN.FAULT
  reg 0x070 0x0,                                     -- PLAN.FAULT_ADDR_LO
  reg 0x074 0x0,                                     -- PLAN.FAULT_ADDR_HI
  reg 0x078 0x0 ]                                    -- PLAN.TTDIFF

/-- The registers of a page by its block type code (R411). -/
def regRows (typ : Nat) : List RegRow :=
  match typ with
  | 1 => regsDev
  | 2 => regsBring
  | 3 => regsClock
  | 4 => regsStroke
  | 5 => regsMesh
  | 6 => regsRegion
  | 7 => regsHbm
  | 8 => regsLink
  | 9 => regsTherm
  | 10 => regsConv
  | 11 => regsSec
  | 12 => regsInteg
  | 13 => regsWeight
  | 14 => regsServe
  | 15 => regsCal
  | 16 => regsPart
  | 17 => regsCore
  | 18 => regsFunc
  | 19 => regsReq
  | 20 => regsAdapt
  | 21 => regsPlan
  | _ => []

/-- The `INT_RAW` bits that a block assigns; LINK0 alone carries bits 8 to 17 (R326, R410). -/
def intBits (typ inst : Nat) : Nat :=
  match typ with
  | 2 => 0x3f
  | 3 => 0x3
  | 4 => 0xfff
  | 5 => 0xfff
  | 6 => 0x7
  | 7 => 0x3f
  | 8 => if inst = 0 then 0x3ff07 else 0x7
  | 9 => 0x3ff
  | 10 => 0x1ff
  | 11 => 0x7f
  | 12 => 0xfff
  | 13 => 0xff
  | 14 => 0x7
  | 15 => 0x1f
  | 16 => 0x1f
  | 18 => 0x1ff
  | 19 => 0xff
  | 20 => 0x1
  | 21 => 0x3f
  | _ => 0

/-- The row of the register at an offset, with the instance number. -/
def regAt (typ off : Nat) : Option (RegRow × Nat) :=
  match (regRows typ).find? (fun r => decide (r.off ≤ off) && (off - r.off) % r.stride == 0
      && decide ((off - r.off) / r.stride < r.count)) with
  | some r => some (r, (off - r.off) / r.stride)
  | none => none

end Sys2Proof.Machine
end

