-- ==== Sys2Proof/Machine/Float.lean ====
section
/-! DEFINITION. The arithmetic of R50: binary32 and bf16 values as exact dyadic numbers, one rounding to nearest even,
subnormals kept, the canonical NaN; the correctly rounded functions of R197. -/

namespace Sys2Proof.Machine

/-- The value of a floating-point number: a NaN, a signed infinity, or (-1)^neg * m * 2^e, exactly (R50). -/
inductive FVal where
  | nan
  | inf (neg : Bool)
  | fin (neg : Bool) (m : Nat) (e : Int)
  deriving DecidableEq, Repr

/-- The canonical NaN of fp32 (R168, R194 to R197). -/
def nan32 : W32 := 0x7FC00000#32

/-- The value of a binary32 (R50). -/
def fval (x : W32) : FVal :=
  let neg := x.getLsbD 31
  let ex := (x.extractLsb' 23 8).toNat
  let fr := (x.extractLsb' 0 23).toNat
  if ex = 255 then (if fr = 0 then .inf neg else .nan)
  else if ex = 0 then .fin neg fr (-149)
  else .fin neg (fr + 2 ^ 23) ((ex : Int) - 150)

/-- The bits of `prec`-bit rounding to nearest even of m * 2^e, `sticky` saying that the exact value lies a little above;
`emin` is the exponent of the least subnormal, `infBits` the encoding of infinity. -/
def roundBits (prec : Nat) (emin : Int) (infBits : Nat) (m : Nat) (e : Int) (sticky : Bool) : Nat :=
  if m = 0 then 0
  else
    let q := max (e + (Nat.log2 m : Int) - ((prec : Int) - 1)) emin
    let r :=
      if q ≤ e then m * 2 ^ (e - q).toNat
      else
        let sh := (q - e).toNat
        let t := m / 2 ^ sh
        let rem := m % 2 ^ sh
        let half := 2 ^ (sh - 1)
        if half < rem ∨ (rem = half ∧ (sticky ∨ t % 2 = 1)) then t + 1 else t
    min ((q - emin).toNat * 2 ^ (prec - 1) + r) infBits

/-- rne_fp32 of (-1)^neg * m * 2^e (R50). -/
def rne32 (neg : Bool) (m : Nat) (e : Int) (sticky : Bool := false) : W32 :=
  let b := roundBits 24 (-149) 0x7F800000 m e sticky
  BitVec.ofNat 32 (if neg then b + 2 ^ 31 else b)

/-- rne_bf16 of (-1)^neg * m * 2^e (R50). -/
def rneBf16 (neg : Bool) (m : Nat) (e : Int) : BitVec 16 :=
  let b := roundBits 8 (-133) 0x7F80 m e false
  BitVec.ofNat 16 (if neg then b + 2 ^ 15 else b)

/-- rne_fp32 of the exact number n * 2^e; an exact zero gives +0 (R65). -/
def rneInt (n : Int) (e : Int) : W32 := rne32 (n < 0) n.natAbs e

def inf32 (neg : Bool) : W32 := if neg then 0xFF800000#32 else 0x7F800000#32

/-- The signed integer (-1)^neg * m. -/
def sint (neg : Bool) (m : Nat) : Int := if neg then -(m : Int) else m

/-- One rounding of the exact sum of two values (R50). -/
def fAddVal (x y : FVal) : W32 :=
  match x, y with
  | .nan, _ => nan32
  | _, .nan => nan32
  | .inf a, .inf b => if a = b then inf32 a else nan32
  | .inf a, .fin _ _ _ => inf32 a
  | .fin _ _ _, .inf b => inf32 b
  | .fin a m e, .fin b n f =>
    let g := min e f
    let t := sint a m * 2 ^ (e - g).toNat + sint b n * 2 ^ (f - g).toNat
    if t = 0 then (if a ∧ b ∧ m = 0 ∧ n = 0 then 0x80000000#32 else 0#32)
    else rneInt t g

/-- The exact product of two values (R50). -/
def fMulVal (x y : FVal) : FVal :=
  match x, y with
  | .nan, _ => .nan
  | _, .nan => .nan
  | .inf a, .inf b => .inf (a != b)
  | .inf a, .fin b n _ => if n = 0 then .nan else .inf (a != b)
  | .fin a m _, .inf b => if m = 0 then .nan else .inf (a != b)
  | .fin a m e, .fin b n f => .fin (a != b) (m * n) (e + f)

/-- The rounding of an exact value. -/
def fRound (x : FVal) : W32 :=
  match x with
  | .nan => nan32
  | .inf a => inf32 a
  | .fin a m e => rne32 a m e

def fAdd (x y : W32) : W32 := fAddVal (fval x) (fval y)
def fNeg (x : W32) : W32 := if fval x = .nan then nan32 else x ^^^ 0x80000000#32
def fAbs (x : W32) : W32 := if fval x = .nan then nan32 else x &&& 0x7FFFFFFF#32
def fSub (x y : W32) : W32 := if fval y = .nan then nan32 else fAdd x (y ^^^ 0x80000000#32)
def fMul (x y : W32) : W32 := fRound (fMulVal (fval x) (fval y))
/-- rne_fp32 of x * y + z, one rounding (R194). -/
def fFma (x y z : W32) : W32 := fAddVal (fMulVal (fval x) (fval y)) (fval z)

/-- rne_fp32 of x / y, used where R200 divides two sums of weights. -/
def fDiv (x y : W32) : W32 :=
  match fval x, fval y with
  | .nan, _ => nan32
  | _, .nan => nan32
  | .inf _, .inf _ => nan32
  | .inf a, .fin b _ _ => inf32 (a != b)
  | .fin a _ _, .inf b => if a != b then 0x80000000#32 else 0#32
  | .fin a m e, .fin b n f =>
    if n = 0 then (if m = 0 then nan32 else inf32 (a != b))
    else
      let num := m * 2 ^ 64
      rne32 (a != b) (num / n) (e - f - 64) (num % n ≠ 0)

/-- Exact order of two finite or infinite values; none when either is a NaN. -/
def fCmp (x y : W32) : Option Ordering :=
  match fval x, fval y with
  | .nan, _ => none
  | _, .nan => none
  | .inf a, .inf b => some (compare (sint a 1) (sint b 1))
  | .inf a, .fin _ _ _ => some (if a then .lt else .gt)
  | .fin _ _ _, .inf b => some (if b then .gt else .lt)
  | .fin a m e, .fin b n f =>
    let g := min e f
    some (compare (sint a m * 2 ^ (e - g).toNat) (sint b n * 2 ^ (f - g).toNat))

def fLt (x y : W32) : Bool := fCmp x y = some .lt
def fGt (x y : W32) : Bool := fCmp x y = some .gt
def fGe (x y : W32) : Bool := fCmp x y = some .gt || fCmp x y = some .eq
def fEq (x y : W32) : Bool := fCmp x y = some .eq
def fIsNan (x : W32) : Bool := fval x = .nan
def fIsInf (x : W32) : Bool := match fval x with | .inf _ => true | _ => false
def fIsFinite (x : W32) : Bool := match fval x with | .fin _ _ _ => true | _ => false

/-- VALU operations 3 and 4 (R195): -0 < +0; a NaN if either is a NaN. -/
def fMax (x y : W32) : W32 :=
  match fCmp x y with
  | none => nan32
  | some .gt => x
  | some .lt => y
  | some .eq => if x.getLsbD 31 then y else x
def fMin (x y : W32) : W32 :=
  match fCmp x y with
  | none => nan32
  | some .gt => y
  | some .lt => x
  | some .eq => if x.getLsbD 31 then x else y

/-- Bits of floor(sqrt n), from bit `k` down. -/
def isqrtFrom (n : Nat) : Nat → Nat → Nat
  | 0, r => r
  | k + 1, r =>
    let c := r + 2 ^ k
    isqrtFrom n k (if c * c ≤ n then c else r)

/-- floor(sqrt n) for n below 2^256. -/
def isqrt (n : Nat) : Nat := isqrtFrom n 128 0

/-- VRSQ (R197): rne_fp32 of 1 / sqrt x. -/
def fRsqrt (x : W32) : W32 :=
  match fval x with
  | .nan => nan32
  | .inf neg => if neg then nan32 else 0#32
  | .fin neg m e =>
    if m = 0 then inf32 neg
    else if neg then nan32
    else
      let odd := e % 2 ≠ 0
      let m' := if odd then 2 * m else m
      let e' := if odd then (e - 1) / 2 else e / 2
      let r := isqrt (2 ^ 140 / m')
      rne32 false r (-70 - e') (r * r * m' ≠ 2 ^ 140)

/-- Fraction bits of the fixed-point numbers in which `fExp2` and `fExpE` work. -/
def expW : Nat := 320
/-- floor(ln 2 * 2^320). -/
def ln2Fix : Nat := 0xb17217f7d1cf79abc9e3b39803f2f6af40f343267298b62d8a0d175b8baafa2be7b876206debac98
/-- floor(log2 e * 2^320). -/
def log2eFix : Nat := 0x171547652b82fe1777d0ffda0d23a7d11d6aef551bad2b4b1164a2cd9a342648fbc3887eeaa2ed9ac

/-- Sum of the Taylor terms t, t*z/k, t*z*z/(k*(k+1)), ... in fixed point. -/
def expTaylor (z : Nat) : Nat → Nat → Nat → Nat
  | 0, _, _ => 0
  | fuel + 1, k, t => t + expTaylor z fuel (k + 1) (t * z / (k * 2 ^ expW))

/-- The result of 2^y for y given as a fixed-point number of `expW` fraction bits. `exact` says that y is an integer and
2^y therefore exact; otherwise the result is irrational (R197). -/
def exp2Fix (y : Int) (exact : Bool) : W32 :=
  let n := y / (2 ^ expW : Int)
  let f := (y % (2 ^ expW : Int)).toNat
  if 128 ≤ n then inf32 false
  else if n < -160 then 0#32
  else if exact then rne32 false 1 n
  else rne32 false (expTaylor (f * ln2Fix / 2 ^ expW) 90 1 (2 ^ expW)) (n - (expW : Int)) true

/-- m * 2^e in fixed point of `expW` fraction bits; exact for every fp32. -/
def toFix (neg : Bool) (m : Nat) (e : Int) : Int := sint neg m * 2 ^ ((expW : Int) + e).toNat

/-- VEXP with flags[0] = 0 (R197): 2^x. -/
def fExp2 (x : W32) : W32 :=
  match fval x with
  | .nan => nan32
  | .inf neg => if neg then 0#32 else inf32 false
  | .fin neg m e =>
    let y := toFix neg m e
    exp2Fix y (y % (2 ^ expW : Int) = 0)

/-- VEXP with flags[0] = 1 (R197): e^x. -/
def fExpE (x : W32) : W32 :=
  match fval x with
  | .nan => nan32
  | .inf neg => if neg then 0#32 else inf32 false
  | .fin neg m e =>
    if m = 0 then 0x3F800000#32
    else exp2Fix (toFix neg m e * (log2eFix : Int) / (2 ^ expW : Int)) false

/-- A bf16 taken as a binary32, exactly (R50). -/
def bf16To32 (x : BitVec 16) : W32 := x ++ 0#16

/-- fp32 to bf16 (R168): the canonical NaN for a NaN. -/
def f32ToBf16 (x : W32) : BitVec 16 :=
  match fval x with
  | .nan => 0x7FC0#16
  | .inf neg => if neg then 0xFF80#16 else 0x7F80#16
  | .fin neg m e => rneBf16 neg m e

/-- Nearest integer of n / d, ties to even (R55, R168). -/
def roundHalfEven (n : Int) (d : Nat) : Int :=
  let q := n / (d : Int)
  let r := n % (d : Int)
  if 2 * r < d then q else if (d : Int) < 2 * r then q + 1 else if q % 2 = 0 then q else q + 1

/-- Nearest integer of n / d, halves away from zero (R27). -/
def roundHalfAway (n : Int) (d : Nat) : Int :=
  if n < 0 then -(((2 * n.natAbs + d) / (2 * d) : Nat) : Int) else (((2 * n.natAbs + d) / (2 * d) : Nat) : Int)

def clampInt (x lo hi : Int) : Int := max lo (min x hi)

/-- Rounding to an integer, half to even, saturating, 0 for NaN (R168). -/
def f32ToInt (x : W32) (lo hi : Int) : Int :=
  match fval x with
  | .nan => 0
  | .inf neg => if neg then lo else hi
  | .fin neg m e =>
    if 0 ≤ e then clampInt (sint neg m * 2 ^ e.toNat) lo hi
    else clampInt (roundHalfEven (sint neg m) (2 ^ (-e).toNat)) lo hi

/-- int32 to fp32 (R168). -/
def intToF32 (n : Int) : W32 := rneInt n 0

/-- rne_fp32 of the exact product n * s * 2^k, s an fp32 scale (R65, R167). -/
def scaleF32 (n : Int) (s : W32) (k : Int) : W32 :=
  match fval s with
  | .nan => nan32
  | .inf neg => if n = 0 then nan32 else inf32 (neg != decide (n < 0))
  | .fin neg m e => rneInt (n * sint neg m) (e + k)

end Sys2Proof.Machine
end

