-- ==== Sys2Proof/Machine/Formats.lean ====
section
/-! DEFINITION. The block formats of R51 to R57, the quantiser of R55, the broad-pass decision of R59, digits and aligned
partials (R61, R62, R167), fair copy (R64, R209), conversions (R168). -/

namespace Sys2Proof.Machine

/-! ### Fields of vector registers (R51, R166, R167, R192) -/

/-- Element `i` of width `w` of a vector register. -/
def elem (w : Nat) (v : W2048) (i : Nat) : BitVec w := v.extractLsb' (w * i) w

/-- The number whose base-2^w digits, least first, are `xs`. -/
def packNat (w : Nat) : List Nat → Nat
  | [] => 0
  | x :: xs => x % 2 ^ w + 2 ^ w * packNat w xs

/-- A vector register of the elements `xs`, element 0 lowest; elements not given are 0. -/
def packV (w : Nat) (xs : List Nat) : W2048 := BitVec.ofNat 2048 (packNat w xs)

/-- The 64 lanes of 32 bits. -/
def lanes (v : W2048) : List W32 := (List.range 64).map (elem 32 v)
def ofLanes (xs : List W32) : W2048 := packV 32 (xs.map BitVec.toNat)

/-- Lane by lane (R195). -/
def mapLanes (f : W32 → W32) (v : W2048) : W2048 := ofLanes ((lanes v).map f)
def zipLanes (f : W32 → W32 → W32) (u v : W2048) : W2048 := ofLanes (List.zipWith f (lanes u) (lanes v))

/-- The 32 bits of a signed integer. -/
def w32 (n : Int) : W32 := BitVec.ofInt 32 n
def byteOf (n : Int) : Nat := (BitVec.ofInt 8 n).toNat

/-! ### Slice headers (R52) -/

def hdrFmtB8 (h : W64) : Bool := h.getLsbD 63
def hdrEref (h : W64) : Int := (h.extractLsb' 0 8).toInt
def hdrDoff (h : W64) (b : Nat) : Nat := (h.extractLsb' (8 + 2 * b) 2).toNat
def hdrEup (h : W64) : Nat := (h.extractLsb' 60 3).toNat
/-- EUP of 5 to 7 is an invalid encoding in a B8 header (R52). -/
def hdrBadEup (h : W64) : Bool := hdrFmtB8 h && decide (4 < hdrEup h)

/-- What a slice header holds (R52). -/
structure Hdr where
  eref : Int
  doff : List Nat
  sat : Nat
  zer : Nat
  /-- bits 62 to 60: BROAD_REQ, ALLZERO, NONFIN of a B4 header, EUP of a B8 header -/
  top : Nat
  b8 : Bool
  deriving DecidableEq, Repr

def Hdr.encode (h : Hdr) : W64 :=
  BitVec.ofNat 64
    ((h.eref % 256).toNat + 2 ^ 8 * packNat 2 h.doff + 2 ^ 40 * (h.sat % 1024) + 2 ^ 50 * (h.zer % 1024)
      + 2 ^ 60 * (h.top % 8) + if h.b8 then 2 ^ 63 else 0)

/-! ### The quantiser (R54 to R57) -/

/-- A source element: its class, or its exact finite value n * 2^e. -/
inductive Src where
  | nan
  | inf (neg : Bool)
  | fin (n : Int) (e : Int)
  deriving DecidableEq, Repr

def Src.of32 (x : W32) : Src :=
  match fval x with
  | .nan => .nan
  | .inf a => .inf a
  | .fin a m e => .fin (sint a m) e

/-- e_need(|n| * 2^e, c) for c = cNum / 2^cExp with 2^(cExp+2) < cNum < 2^(cExp+3) (R55): the least k with
|n| * 2^e < c * 2^k. -/
def eNeed (cNum cExp : Nat) (n : Int) (e : Int) : Int :=
  let l := Nat.log2 n.natAbs
  if n.natAbs * 2 ^ (cExp + 2) < cNum * 2 ^ l then e + l - 2 else e + l - 1

/-- The saturation edge 7.5 of B4 and 7.96875 of B8 (R55). -/
def eNeed4 : Int → Int → Int := eNeed 15 1
def eNeed8 : Int → Int → Int := eNeed 255 5

/-- Greatest e_need over the finite, non-zero elements; none when every one is zero or non-finite. e_need is monotone in
the magnitude, so this is the e_need of the block's largest finite magnitude (R55). -/
def needOf (f : Int → Int → Int) (xs : List Src) : Option Int :=
  xs.foldl (fun acc x =>
    match x with
    | .fin n e => if n = 0 then acc else
        match acc with
        | none => some (f n e)
        | some k => some (max k (f n e))
    | _ => acc) none

/-- quant(x, e, mmax) of R55: mantissa, saturated, zeroed. -/
def quant (x : Src) (e : Int) (mmax : Int) : Int × Nat × Nat :=
  match x with
  | .nan => (0, 1, 0)
  | .inf neg => (if neg then -mmax else mmax, 1, 0)
  | .fin n k =>
    let r := if e ≤ k then n * 2 ^ (k - e).toNat else roundHalfEven n (2 ^ (e - k).toNat)
    if mmax < r then (mmax, 1, 0)
    else if r < -mmax then (-mmax, 1, 0)
    else if n ≠ 0 ∧ r = 0 then (0, 0, 1)
    else (r, 0, 0)

/-- A quantised block: offset, mantissas, saturated and zeroed counts (R56). -/
structure QBlock where
  d : Nat
  ms : List Int
  sat : Nat
  zer : Nat
  deriving DecidableEq, Repr

def quantBlock (need : Option Int) (xs : List Src) (e : Int) (lsb : Int) (mmax : Int) : QBlock :=
  let d : Nat := match need with
    | none => 3
    | some k => (clampInt (e - k) 0 3).toNat
  let q := xs.map (fun x => quant x (e - d - lsb) mmax)
  { d := d, ms := q.map (·.1), sat := (q.map (·.2.1)).sum, zer := (q.map (·.2.2)).sum }

/-- The 16 blocks of 32 elements of a slice. -/
def blocksOf (xs : List Src) : List (List Src) := (List.range 16).map (fun b => (xs.drop (32 * b)).take 32)

/-- The four conditions of a threshold word (R59). -/
def broadReq (thr : W32) (bs : List QBlock) : Bool :=
  let blkSat := (thr.extractLsb' 0 6).toNat
  let blkZer := (thr.extractLsb' 6 6).toNat
  let slSat := (thr.extractLsb' 12 10).toNat
  let slZer := (thr.extractLsb' 22 10).toNat
  (decide (blkSat < 32) && bs.any (fun b => decide (blkSat < b.sat)))
  || (decide (blkZer < 32) && bs.any (fun b => decide (blkZer < b.zer)))
  || (decide (slSat < 512) && decide (slSat < (bs.map (·.sat)).sum))
  || (decide (slZer < 512) && decide (slZer < (bs.map (·.zer)).sum))

def Src.isZero : Src → Bool
  | .fin n _ => n = 0
  | _ => false
def Src.nonFinite : Src → Bool
  | .fin _ _ => false
  | _ => true

/-- QB4 (R55, R59): mantissas and header; BROAD_REQ is bit 60 of the header. `stat` is the static exponent, none in
dynamic mode. -/
def qb4 (xs : List Src) (stat : Option Int) (thr : W32) : List Int × W64 :=
  let eref := match stat with
    | some e => e
    | none => match needOf eNeed4 xs with
      | none => 0
      | some k => clampInt k (-128) 127
  let bs := (blocksOf xs).map (fun b => quantBlock (needOf eNeed4 b) b eref 0 7)
  let allZero := xs.all Src.isZero
  let nonFin := xs.any Src.nonFinite
  let req := !allZero && broadReq thr bs
  (bs.flatMap (·.ms),
    Hdr.encode { eref := eref, doff := bs.map (·.d), sat := (bs.map (·.sat)).sum, zer := (bs.map (·.zer)).sum,
                 top := (if req then 1 else 0) + (if allZero then 2 else 0) + (if nonFin then 4 else 0), b8 := false })

/-- QB8 (R55): mantissas and B8 header, from the e_ref of the slice's B4 header. -/
def qb8 (xs : List Src) (eref : Int) : List Int × W64 :=
  let e8 := match needOf eNeed8 xs with
    | none => eref
    | some k => clampInt k eref (min (eref + 4) 127)
  let bs := (blocksOf xs).map (fun b => quantBlock (needOf eNeed8 b) b e8 4 127)
  (bs.flatMap (·.ms),
    Hdr.encode { eref := eref, doff := bs.map (·.d), sat := (bs.map (·.sat)).sum, zer := (bs.map (·.zer)).sum,
                 top := (e8 - eref).toNat, b8 := true })

/-! ### Slices in registers, digits and drive values (R24, R51, R61) -/

/-- The 512 mantissas of a B4 slice. -/
def slice4 (v : W2048) : List Int := (List.range 512).map (fun i => (elem 4 v i).toInt)
def ofSlice4 (ms : List Int) : W2048 := packV 4 (ms.map (fun m => (m % 16).toNat))
/-- The 512 mantissas of a B8 slice, over two registers. -/
def slice8 (v0 v1 : W2048) : List Int :=
  (List.range 256).map (fun i => (elem 8 v0 i).toInt) ++ (List.range 256).map (fun i => (elem 8 v1 i).toInt)
def ofSlice8 (ms : List Int) : W2048 × W2048 :=
  (packV 8 ((ms.take 256).map byteOf), packV 8 ((ms.drop 256).map byteOf))

/-- Low and high digit of a B8 mantissa (R61). -/
def digLo (m : Int) : Int := (m + 8) % 16 - 8
def digHi (m : Int) : Int := (m - digLo m) / 16

/-- Drive values p_i := m_i * 2^(3 - d_b) (R24, R52). -/
def drives (h : W64) (ms : List Int) : List Int :=
  ms.zipIdx.map (fun (m, i) => m * 2 ^ (3 - hdrDoff h (i / 32)))

/-- The 512 source elements of QB4 and QB8 in the registers `vs` (R166). -/
def sourceElems (bf16 : Bool) (vs : List W2048) : List Src :=
  if bf16 then vs.flatMap (fun v => (List.range 128).map (fun i => Src.of32 (bf16To32 (elem 16 v i))))
  else vs.flatMap (fun v => (lanes v).map Src.of32)

/-! ### Codes (R158) and aligned partials (R62, R167) -/

/-- Codes of 512 columns in two registers. -/
def packCodes (cs : List Int) : W2048 × W2048 :=
  (packV 8 ((cs.take 256).map byteOf), packV 8 ((cs.drop 256).map byteOf))

/-- Signed byte `j` of a register pair (R158). -/
def codeAt (v0 v1 : W2048) (j : Nat) : Int := (elem 8 (if j < 256 then v0 else v1) (j % 256)).toInt

/-- DQC ALIGN_N (R62, R167), column group `q`. -/
def alignN (v0 v1 : W2048) (q : Nat) : W2048 :=
  ofLanes ((List.range 64).map (fun l => w32 (16 * codeAt v0 v1 (64 * q + l))))

/-- DQC ALIGN_B (R62, R167). -/
def alignB (h0 h1 l0 l1 : W2048) (eup q : Nat) : W2048 :=
  ofLanes ((List.range 64).map (fun l =>
    w32 ((16 * codeAt h0 h1 (64 * q + l) + codeAt l0 l1 (64 * q + l)) * 2 ^ eup)))

/-- DQC SCALE (R65, R167). -/
def scaleLanes (acc scales : W2048) (hdr : W64) (s : Nat) : W2048 :=
  zipLanes (fun a x => scaleF32 a.toInt x (hdrEref hdr - 7 + s)) acc scales

/-! ### Fair copy (R64, R209) -/

/-- Weight w_ij of a tile whose byte `k` is `code k`, in the tile code layout of R209. -/
def tileWeight (code : Nat → Byte) (i j : Nat) : Int :=
  ((code (256 * i + j / 2)).extractLsb' (if j % 2 = 0 then 0 else 4) 4).toInt

/-- The dot product Σ p_i * w_i of one column, rows counted from `i`. -/
def dotFrom (w : Nat → Int) : Nat → List Int → Int
  | _, [] => 0
  | i, p :: ps => p * w i + dotFrom w (i + 1) ps

/-- D_j of R25: the exact sum of column `j`. -/
def colSum (code : Nat → Byte) (ps : List Int) (j : Nat) : Int := dotFrom (fun i => tileWeight code i j) 0 ps

/-- Drive values of a slice: of a B4 slice, or the high and low digits of a B8 slice (R52). -/
inductive Drive where
  | narrow (p : List Int)
  | broad (hi lo : List Int)
  deriving DecidableEq, Repr

def driveOf (h : W64) (ms : List Int) : Drive :=
  if hdrFmtB8 h then .broad (drives h (ms.map digHi)) (drives h (ms.map digLo)) else .narrow (drives h ms)

/-- f_j of fc_tile (R64). -/
def fcColumn (h : W64) (d : Drive) (code : Nat → Byte) (j : Nat) : Int :=
  match d with
  | .narrow p => 16 * colSum code p j
  | .broad hi lo => (16 * colSum code hi j + colSum code lo j) * 2 ^ hdrEup h

/-- The ideal code of R27. -/
def idealCode (d : Int) (s : Nat) : Int := clampInt (roundHalfAway d (2 ^ s)) (-128) 127

/-- The ideal threshold bit of R32. -/
def idealBit (d : Int) (s : Nat) (θ : Int) : Bool := decide (θ * 2 ^ s ≤ d)

/-! ### Conversions (R168) -/

def clip8 (n : Int) : Nat := byteOf (clampInt n (-128) 127)

/-- CVT: destination registers from source registers, by imm[3:0] (R168). -/
def convert (op : Nat) (src : List W2048) : List W2048 :=
  let l32 := src.flatMap lanes
  let b8 := match src with
    | v :: _ => (List.range 256).map (fun i => (elem 8 v i).toInt)
    | [] => []
  let quads (xs : List W32) : List W2048 := (List.range 4).map (fun k => ofLanes ((xs.drop (64 * k)).take 64))
  match op with
  | 0 => [packV 16 (l32.map (fun x => (f32ToBf16 x).toNat))]
  | 1 =>
    let h := match src with
      | v :: _ => (List.range 128).map (fun i => bf16To32 (elem 16 v i))
      | [] => []
    [ofLanes (h.take 64), ofLanes (h.drop 64)]
  | 2 => [ofLanes (l32.map (fun x => intToF32 x.toInt))]
  | 3 => [ofLanes (l32.map (fun x => w32 (f32ToInt x (-(2 ^ 31)) (2 ^ 31 - 1))))]
  | 4 => quads (b8.map w32)
  | 5 => [packV 8 (l32.map (fun x => clip8 x.toInt))]
  | 6 => [packV 8 (l32.map (fun x => byteOf (f32ToInt x (-128) 127)))]
  | _ => quads (b8.map intToF32)

/-- Registers a conversion reads and writes (R168). -/
def convertSrc (op : Nat) : Nat := match op with | 0 => 2 | 5 => 4 | 6 => 4 | _ => 1
def convertDst (op : Nat) : Nat := match op with | 1 => 2 | 4 => 4 | 7 => 4 | _ => 1

end Sys2Proof.Machine
end

