-- ==== Sys2Proof/Machine/Cells.lean ====
section
/-! DEFINITION. The cells of an array: levels and conductances, weight positions, reference patterns and check columns, and what
they add to a column's charge (R20 to R25, R34, R37). -/

namespace Sys2Proof.Machine

/-! ### Levels (R21, R22) -/

/-- Columns of an array by number: data columns 0 to 511, CHK0 to CHK7 from 512 on, REF0 to REF7 from 520 on (R20). -/
def chkCol (n : Nat) : Nat := 512 + n
def refCol (n : Nat) : Nat := 520 + n
def numCols : Nat := 528

/-- Nominal conductance of a level in microsiemens (R21). -/
def conductance (level : Nat) : Nat := 1 + 2 * level
/-- Levels of the plus and the minus cell for a weight (R22). -/
def plusLevel (w : Int) : Nat := (w + 8).toNat
def minusLevel (w : Int) : Nat := (7 - w).toNat

/-- A weight position as a byte of the array's cells: the plus cell's level in the high half, the minus cell's in the low. -/
def pairByte (w : Int) : Byte := BitVec.ofNat 8 (16 * plusLevel w + minusLevel w)

/-- The cells of one array: the position of row i and column c stands at 512 c + i; a position that is not listed has both cells
at level 0, as an erased array has everywhere (R282). -/
abbrev Cells := List Host.Cell

def cellPlus (m : Cells) (c i : Nat) : Nat := (Mem.read m (512 * c + i)).toNat / 16
def cellMinus (m : Cells) (c i : Nat) : Nat := (Mem.read m (512 * c + i)).toNat % 16

/-- What row i adds to column c for a unit of drive: half the difference of the conductances, p - m of R22 (R25). -/
def cellDiff (m : Cells) (c i : Nat) : Int :=
  ((conductance (cellPlus m c i) : Int) - conductance (cellMinus m c i)) / 2

/-- The charge of a column in units of the drive (R25). -/
def colCharge (m : Cells) (ps : List Int) (c : Nat) : Int := dotFrom (cellDiff m c) 0 ps

/-- D of a column: half of what is left of its charge when that of REF0 is subtracted (R25). -/
def colD (m : Cells) (ps : List Int) (c : Nat) : Int := (colCharge m ps c - colCharge m ps (refCol 0)) / 2

/-! ### Reference columns (R34) -/

/-- The weight of REF k in row i. -/
def refWeight (k i : Nat) : Int :=
  match k with
  | 1 => 7
  | 2 => -8
  | 3 => if i ≤ 255 then 7 else -8
  | 4 => if i % 2 = 0 then 4 else -4
  | 5 => 1
  | 7 => if i % 4 < 2 then 7 else -7
  | _ => 0

/-- The exact D of REF k. -/
def refD (k : Nat) (ps : List Int) : Int := dotFrom (refWeight k) 0 ps

/-! ### Check columns (R37) -/

/-- Row sum r_gi of a check group of a tile. -/
def rowSum (code : Nat → Byte) (g i : Nat) : Int := ((List.range 256).map (fun j => tileWeight code i (256 * g + j))).sum

/-- Balanced base-16 digit `k` of a row sum. -/
def checkDigit : Nat → Int → Int
  | 0, r => (r + 8) % 16 - 8
  | k + 1, r => checkDigit k ((r - ((r + 8) % 16 - 8)) / 16)

/-- Group and digit that a check column holds: CHK6 and CHK7 are the duplicates of CHK2 and CHK5. -/
def chkDigitOf (n : Nat) : Nat × Nat := if n < 6 then (n / 3, n % 3) else (n - 6, 2)

/-- The weight that a programming with a tile gives column `c` in row `i`. -/
def columnWeight (code : Nat → Byte) (c i : Nat) : Int :=
  if c < 512 then tileWeight code i c
  else if c < 520 then let x := chkDigitOf (c - 512); checkDigit x.2 (rowSum code x.1 i)
  else refWeight (c - 520) i

/-- The cells of an array programmed with a tile (R22, R34, R37, R279). -/
def programmedCells (code : Nat → Byte) : Cells :=
  (List.range (512 * numCols)).map (fun a => (a, pairByte (columnWeight code (a / 512) (a % 512))))

/-- The sum that the check node of group `g` is formed of: its digit columns with charge weights 1, 16 and 256 (R37). -/
def checkSum (m : Cells) (ps : List Int) (g : Nat) : Int :=
  colD m ps (chkCol (3 * g)) + 16 * colD m ps (chkCol (3 * g + 1)) + 256 * colD m ps (chkCol (3 * g + 2))

/-- The sum of the group's 256 data columns. -/
def groupSum (m : Cells) (ps : List Int) (g : Nat) : Int :=
  ((List.range 256).map (fun j => colD m ps (256 * g + j))).sum

end Sys2Proof.Machine
end

