-- ==== Sys2Proof/Machine/State.lean ====
section
/-! DEFINITION. The state of the block: every register, store, queue and mode that the manual gives the FZ1096, as plain
data, and its value after reset. RW registers without a structure of their own stand in `regs`. -/

namespace Sys2Proof.Machine

/-! ### Arrays (chapter 2) -/

/-- What an array does (R49, R26, R30, R31, R42, R162, R165, R265). -/
inductive EvalKind where
  | narrow | broad | threshold | refCodes | proof | calib | part
  deriving DecidableEq, Repr

/-- An evaluation that occupies an array until its delivery (R26, R30, R31): operands latched at cycle 0. `fair` says that
a prover or a shadow serves it (R156). -/
structure Eval where
  kind    : EvalKind
  lcore   : Nat
  index   : Nat            -- instruction index that issued it
  dest    : Nat
  drive   : Drive
  range   : Nat
  gain    : Nat            -- a_A latched
  offs    : Int            -- b_A latched
  trims   : List Int       -- column trims latched, as in `ArrayUnit.trims`
  thresh  : List Int
  seed    : W64
  fair    : Bool
  /-- the step that issued it still wants the result (R29, R118) -/
  wanted  : Bool
  deriving DecidableEq, Repr

/-- A tracking window (R35): evaluations counted, the pairs (reference column k, exact D, delivered code), whose expected
value is D / 2^range, and the junction temperature of the last evaluation. -/
structure TrackSums where
  evals : Nat
  pairs : List (Nat × Int × Int)
  temp  : Int
  deriving DecidableEq, Repr

/-- The sticky check log of a step (R163). -/
structure CheckLog where
  fail  : Bool
  win   : Bool
  unchk : Bool
  /-- a check-column fault among the failures (R39, check code 3 of R273) -/
  chkCol : Bool
  /-- instruction index of the first failure -/
  index : Nat
  deriving DecidableEq, Repr

/-- Residency state of an array (R278). -/
inductive ResState where
  | empty | programming | resident | failed
  deriving DecidableEq, Repr

/-- One physical array: the registers of R49, its tracking window, its check log, its non-volatile records (R43, R278),
its cells and its repair state. Array n of physical core c has key 32 c + n. -/
structure ArrayUnit where
  trackHold : Bool
  range     : Nat
  gain      : Nat          -- a_A in units of 2^-15
  offs      : Int          -- b_A in 1/64 code
  driftTh   : Nat
  lastRes   : Int
  lastFail  : Bool
  lastUnchk : Bool
  lastWin   : Bool
  chkCol    : Bool
  evCnt     : Nat
  tTrk      : Nat
  trackValid : Bool
  trackLim  : Bool
  fenced    : Bool         -- out of array service from the last boundary on (R278, R279)
  broken    : Bool         -- permanent array fault (R257)
  eval      : Option Eval
  sums      : TrackSums
  log       : CheckLog
  /-- on-die non-volatile records -/
  resState  : ResState
  edition   : Nat
  tile      : Nat
  resPart   : Nat
  writeCnt  : Nat
  recOk     : Bool
  trimBad   : Bool         -- no trim record with a matching CRC (R43); good once step 11 has loaded them
  trimStored : Bool        -- a trim record is stored
  trimNew   : Bool         -- stored trims take effect at the next boundary (R289)
  /-- levels of the plus and minus cells of the 528 columns (R20 to R22, R37) -/
  cells     : Cells
  devs      : List Int     -- averaged deviations of REF1 to REF7, in units of 2^-24 (R284)
  due       : Bool
  dueNo     : Nat          -- order in which its refresh fell due (R280)
  shadowed  : Bool         -- a shadow or a prover serves it (R156, R286)
  verified  : Bool         -- read back and found right since the last device reset (R283)
  /-- trim codes stored, gain and offset of each column: 512 data columns, CHK0 to CHK7, REF1 to REF7; or empty (R42) -/
  trims     : List Int
  nextTrims : List Int     -- stored and not yet in effect (R289)
  deriving DecidableEq, Repr

/-! ### Cores and mesh (chapter 5) -/

/-- States of a physical core (R115). -/
inductive CoreKind where
  | bad | spare | active | fenced | taking
  deriving DecidableEq, Repr

/-- Why a physical core is TAKING (R120, R124, R257). -/
inductive TakeWhy where
  | replace | migrate | migrateFence
  deriving DecidableEq, Repr

/-- One physical core: its registers of R48 and R125, its router (R104 to R107), its ligature slots (R112). -/
structure PCore where
  kind     : CoreKind
  lcore    : Nat
  part     : Nat
  rtrUp    : Bool
  portUp   : Nat           -- 5 bits: north, south, east, west, local
  rtrFault : Bool
  /-- the retained copy of the router's state, its ports and its fault, from which a warm start that skips step 9 takes them -/
  rtrKept  : Bool
  portKept : Nat
  faultKept : Bool
  /-- SRAM that a core took with it out of service; nobody can reach it (R118) -/
  sramKept : List Host.Cell
  sramCe   : Nat
  sramUe   : Nat
  sramLast : Nat
  sramLastUe : Bool
  resFail  : Nat
  retry    : Nat
  discard  : Nat
  slotHw   : Nat
  ligTimeout : Nat
  ligChkFail : Nat
  chgFail  : Nat
  winFail  : Nat
  unchk    : Nat
  tCal     : Nat
  tCalRec  : Nat           -- T_cal in the non-volatile block (R43)
  takeFrom : Nat           -- the core a TAKING core stands in for
  takeWhy  : TakeWhy
  fwVersion : Nat          -- version of the image that step 10 left in the core's store (R358)
  lastSample : Nat         -- stroke of the last matching sample (R261)
  sampleRuns : Nat         -- forced samples left after a mismatch (R263)
  sampleNext : Bool        -- chosen again, because its trace was too long (R261)
  taintOpen : Option (Nat × Nat)   -- the pending report of that mismatch: SEQ, first stroke of the range (R263)
  lastProof : Nat          -- stroke at which the last proof round completed (R267)
  deriving DecidableEq, Repr

/-- A contributor of a chain: physical core, array, plan index (R109, R178). -/
structure ChainTerm where
  core   : Nat
  array  : Nat
  pindex : Nat
  deriving DecidableEq, Repr

/-- A ligature flit in a slot of a router, or gathered at its destination (R108, R112, R177): the sum so far (`lanes`,
empty where none has come), and terms not yet added, by their place in the chain order (R109). -/
structure LigFlit where
  tag      : Nat
  stepTag  : Nat
  dest     : Nat           -- destination physical core
  lcore    : Nat           -- logical core that the ligature is for
  lfmt     : Bool          -- fp32
  lanes    : List W32      -- 16 lanes
  ncontrib : Nat
  lchk     : W32
  terms    : List (Nat × List W32)
  /-- the chain order that the sum follows; none in merge mode (R108) -/
  order    : Option (List ChainTerm)
  /-- terms of the chain order that the running sum holds -/
  pos      : Nat
  deriving DecidableEq, Repr

/-- Modes of the remap table (R116, R126). -/
inductive RemapMode where
  | unused | arrays | fairCopy | hosted
  deriving DecidableEq, Repr

/-- An entry of the remap table, and the change due at the next boundary. -/
structure Remap where
  pcore : Nat
  mode  : RemapMode
  host  : Nat
  part  : Nat
  next  : Option (Nat × RemapMode × Nat)
  deriving DecidableEq, Repr

/-- The MESH page's own state (R126). -/
structure Mesh where
  spareTotal : Nat
  good       : Nat
  rtVersion  : Nat
  rtUpdates  : Nat
  fenceBusy  : Bool
  fenceOp    : Nat
  fencePcore : Nat
  fenceResult : Nat
  fenceSpare : Nat
  faultPcore : Nat
  faultPort  : Nat
  faultKind  : Nat
  linksDown  : Nat
  /-- fault found and not yet routed around (R122) -/
  rtPending  : Bool
  /-- flits were lost to a fault of this stroke, by partition mask (R122) -/
  lostFor    : List Nat
  /-- output ports of the route tables that differ from those without a fault, by 2048 x router + destination; edge port e
  stands as destination 1152 + e (R106) -/
  routes     : Tbl Nat
  /-- edge routers, by router and outward port, that the tables lead past (R106) -/
  edgeDown   : List (Nat × Nat)
  deriving DecidableEq, Repr

/-- A clock region's divider and crossings (R113, R114, R127); index 0 to 7. -/
structure Region where
  div      : Nat
  src      : Nat
  xv       : Bool
  xe       : Bool
  xw       : Bool
  count    : Nat
  /-- divider ordered and not yet in force, with its cause: crossings are switching (R114) -/
  divNext  : Option (Nat × Nat)
  deriving DecidableEq, Repr

/-! ### Scribes (chapters 6 to 8) -/

/-- What a scribe does. `ready` is WSTRK executed, `halted` is HALT (R184, R185), `faulted` a program fault (R146),
`stopped` fenced or without a step. -/
inductive ScribeMode where
  | idle | running | ready | halted | faulted | stopped
  deriving DecidableEq, Repr

/-- A loop of the loop stack (R183). -/
structure LoopRec where
  start : Nat
  last  : Nat
  left  : Nat
  deriving DecidableEq, Repr

/-- The kind of what a FENCE waits for (R187): memory and mesh transactions (R155), and BLOT, which R155 does not count. -/
inductive TxKind where
  | memory | mesh | blot
  deriving DecidableEq, Repr

/-- A transaction in progress: its identifier, kind and the SRAM bytes under the address scoreboard (R145, R155). -/
structure Tx where
  id    : Nat
  kind  : TxKind
  write : Bool             -- writes the SRAM region
  lo    : Nat
  len   : Nat
  deriving DecidableEq, Repr

/-- A SEND or MCAST waiting for its answers (R175). -/
structure SendReq where
  id      : Nat
  tag     : Nat
  dests   : List Nat       -- plan indices that have not answered
  all     : List Nat
  device  : Option Nat     -- block position, for another device
  lo      : Nat
  len     : Nat
  index   : Nat
  deriving DecidableEq, Repr

/-- A RECV posted (R175). -/
structure RecvPost where
  id      : Nat
  tag     : Nat
  peer    : Nat            -- plan index
  device  : Option Nat
  lo      : Nat
  len     : Nat
  matched : Bool
  sendId  : Nat            -- the sender's transaction, once matched
  data    : Option (List Byte)   -- what a sender on this device has read for it, not yet written
  index   : Nat
  deriving DecidableEq, Repr

/-- A request of a sender that no RECV has matched yet (R175). -/
structure SendArrived where
  tag    : Nat
  peer   : Nat
  device : Option Nat
  len    : Nat
  sendId : Nat
  deriving DecidableEq, Repr

/-- A ligature receipt that has issued (R177, R178). -/
structure LigReceipt where
  tag      : Nat
  lfmt     : Bool
  dest     : Nat
  expected : Nat
  index    : Nat
  /-- LIG_CHK has been raised for a tag of it (R177) -/
  failed   : Bool
  deriving DecidableEq, Repr

/-- The architectural registers of R139. A register without an entry was not written since the job's first step and reads
as the value R139 leaves undefined (the epoch chooses it), or 0 when the epoch is 0. -/
structure Arch where
  g : Tbl W64
  a : Tbl W64
  v : Tbl W2048
  t : Tbl W2048            -- row r of tile n has key 64 n + r
  p : Tbl Bool
  epoch : Nat
  halted : Bool
  deriving DecidableEq, Repr

/-- The scribe context of a logical core: the state of R139, R182 to R187 and R207, its SRAM and what it has in flight. -/
structure Scribe where
  mode    : ScribeMode
  part    : Nat
  pindex  : Nat
  role    : Nat
  nInstr  : Nat            -- instruction count of the role (R130)
  pc      : Nat
  loops   : List LoopRec
  arch    : Arch
  ckpt    : Arch           -- checkpoint store: the state at the start of the step (R252)
  special : List W32       -- LCORE, NCORE, PART, STROKE, SLOT, TTID, EDITION (R141)
  sram    : List Host.Cell
  txs     : List Tx
  sends   : List SendReq
  recvs   : List RecvPost
  arrived : List SendArrived
  receipts : List LigReceipt
  flits   : List LigFlit   -- flits of tags that arrived at the core
  digest  : W64            -- step digest (R207)
  recorded : Option W64    -- the digest recorded with the step
  atBar   : Bool
  grants  : List (Nat × Nat)      -- occupancy intervals of granted passes of the step: first cycle, end (R88)
  broadLog : List Bool             -- grant record of the step, in issue order, kept until it has committed (R89, R252)
  broadReplay : List Bool          -- recorded grants still to be used by a replay (R89)
  wstrkAt : Option Nat     -- time of WSTRK in reference periods (R97)
  /-- what enters and leaves the core is recorded: it is sampled, or implicated in a replay (R255, R261) -/
  traced  : Bool
  /-- values that entered the core in the step, oldest first (R261) -/
  trace   : List (List Byte)
  /-- digest of every value that left it (R255, R261) -/
  outDig  : W64
  deriving DecidableEq, Repr


/-! ### Requests, pages and handles (chapter 9) -/

/-- States of a request slot (R227). -/
inductive SlotState where
  | free | prefill | decode | digesting | pausedDigest | parking | parked | resuming | building
  deriving DecidableEq, Repr

/-- A request descriptor's fields (R214). -/
structure Desc where
  kind : Nat
  withdraw : Nat
  flags : Nat
  priority : Nat
  adapter : Nat
  specLen : Nat
  hostTag : W64
  handle : W64
  promptAddr : Nat
  promptLen : Nat
  maxTokens : Nat
  scrollAddr : Nat
  consumedAddr : Nat
  standbyAddr : Nat
  standbyConsumed : Nat
  scrollLen : Nat
  ttlMs : Nat
  parkAddr : Nat
  parkKib : Nat
  seed : W64
  params : List Byte
  /-- the reserved bytes are all 0 -/
  reservedOk : Bool
  deriving DecidableEq, Repr

/-- A position of a private page (R235); STAGED is held by the blotter. -/
inductive PosState where
  | empty | committed | draft
  deriving DecidableEq, Repr

/-- A request slot (R227): the request it holds and what it remembers of the last one (R226). -/
structure Slot where
  state     : SlotState
  gen       : Nat
  part      : Nat
  desc      : Desc
  priority  : Nat
  prefixLen : Nat
  promptDone : Nat         -- prompt tokens processed and committed
  position  : Nat          -- token position of the next position to process
  nextSeq   : Nat
  lastToken : Nat          -- last committed token index
  consumed  : Nat
  stalled   : Bool
  lastListed : Nat
  handle    : Option Nat
  kvMap     : Tbl Nat      -- key LAYERS * block + layer: page number
  reserved  : Nat          -- pages reserved and not yet allocated
  stateArea : List Host.Cell
  frozen    : Bool
  cancel    : Option (Nat × Nat)   -- cancel point: stroke number and count
  cancelTag : Nat
  before    : SlotState    -- state before the pause
  copyDone  : Bool         -- park copy complete
  pagesReady : Bool        -- resuming pages ready
  pagesHeld : Bool         -- resuming pages allocated (R232, R233)
  readFailed : Bool        -- the park buffer could not be read back; ends at the next window or boundary (R212, R246)
  resumeCtrl : Nat         -- CTRL of the first step after a resume: 2 digest, 3 park, 0 none
  resumedFlag : Bool       -- the next record carries FLAGS[3]
  resumedOwed : Bool       -- RESUMED outcome still to be written (R228)
  resumedNew : Bool        -- resumed from PARKING and not listed since (R201, R228)
  lastEndGen : Option (Nat × Nat)  -- generation and END code of the last request that ended here
  lastEndSeq : Nat         -- its records
  expired   : Bool         -- the park time to live has elapsed; ends at the next boundary (R228, R246)
  parked    : List (Nat × Tbl PosState)  -- map keys and position states of the pages in the park buffer
  takeover  : Bool         -- records carry TAKEOVER (R222)
  base      : Nat              -- records committed before the takeover, which STANDBY_CONSUMED does not count (R321)
  deriving DecidableEq, Repr

/-- Owner of a KV page (R235). -/
inductive PageOwner where
  | free | priv (slot : Nat) | sealed (handle : Nat) | retired
  deriving DecidableEq, Repr

/-- A KV page of 64 positions of 4 KiB (R171, R235). -/
structure KvPage where
  part  : Nat
  owner : PageOwner
  pos   : Tbl PosState
  data  : List Host.Cell
  deriving DecidableEq, Repr

/-- States of a prefix handle (R240). -/
inductive HandleState where
  | free | building | sealed | releasing | stale
  deriving DecidableEq, Repr

/-- A handle entry (R237, R240). -/
structure Handle where
  state   : HandleState
  gen     : Nat
  part    : Nat
  count29 : Nat            -- low 29 bits of the partition's count of registrations
  users   : Nat
  prefixLen : Nat
  pages   : Tbl Nat        -- key LAYERS * block + layer
  ttl     : Nat
  edition : Nat
  hostTag : W64
  slot    : Nat            -- slot of the registration, and its generation there
  slotGen : Nat
  expired : Bool           -- the time to live has elapsed; freed at the next boundary (R240, R246)
  quiet   : Bool           -- taken in for the buddy's ring: no completion is written here (R322)
  owed    : Bool           -- sealed here; HANDLE_READY waits for the buddy (R322)
  peerSealed : Bool        -- sealed on the buddy (R322)
  deriving DecidableEq, Repr

/-- An accepted order that waits in a partition's queue (R224, R225). -/
structure Order where
  slot   : Nat
  gen    : Nat
  op     : Nat
  mode   : Nat
  prio   : Nat
  tag    : Nat
  stroke : Nat
  count  : Nat
  /-- handle release orders of R241 -/
  isHandle : Bool
  deriving DecidableEq, Repr

/-- A completion entry (R223), but for its PHASE byte. -/
structure Completion where
  tag   : W64
  slot  : Nat
  gen   : Nat
  kind  : Nat
  code  : Nat
  value : W64
  stroke : Nat
  deriving DecidableEq, Repr

/-- An entry of the request list of a step (R201, R217). -/
structure ListEntry where
  slot      : Nat
  prefill   : Bool
  speculative : Bool
  resumed   : Bool
  ctrl      : Nat
  positions : Nat
  position  : Nat
  adapter   : Option Nat
  priority  : Nat
  delivered : Nat
  seed      : W64
  deriving DecidableEq, Repr

/-! ### Blotter, jobs and plans (chapters 4, 6, 9, 10) -/

/-- The hardware a failing check implicates (R255). -/
inductive FaultUnit where
  | array (pcore n : Nat)
  | core (pcore : Nat)
  | ligature (pcore tag index : Nat)
  | hbmScratch (page stack : Nat)
  | hbmPage (page stack : Nat)
  | hbmState (slot stack : Nat)
  | hbmImage (stack : Nat)
  | router (pcore : Nat)
  | fence (pcore : Nat)
  | peer
  deriving DecidableEq, Repr

/-- Which requests a failing check touches (R249). -/
inductive SuspectSet where
  | all | slot (n : Nat) | slots (ns : List Nat) | handle (h : Nat)
  deriving DecidableEq, Repr

/-- A failed inline check of the step (R247). -/
structure Suspect where
  check : Nat              -- check code of R273
  unit  : FaultUnit
  reqs  : SuspectSet
  pindex : Nat
  index : Nat              -- instruction index
  cause : Nat              -- of a SUSP
  deriving DecidableEq, Repr

/-- A program fault found in the step (R146): role, instruction index, code, address. -/
structure ProgFault where
  role  : Nat
  index : Nat
  code  : Nat
  pindex : Nat
  addr  : W64
  deriving DecidableEq, Repr

/-- What a replay step does (R254, R255, R260). -/
inductive ReplayKind where
  | normal | ligatureSame | ligatureRelay
  deriving DecidableEq, Repr

/-- What the partition's registers report of a committed step (R97, R100). -/
structure Measure where
  span     : Nat
  req      : Nat           -- broad requests
  refused  : Nat
  clean    : Bool          -- no device of the block refused a request (R92)
  slackOf  : Tbl Int       -- slack by plan index
  minSlack : Int
  worst    : Nat           -- logical core with the least slack
  deriving DecidableEq, Repr

/-- A held step and the replay that recovers it (R254, R258). -/
structure Hold where
  age      : Nat           -- boundaries since B0
  paired   : Bool          -- the pair was PAIRED at B0: the buddy computes (R259)
  stepNo   : Nat
  slots    : List Nat      -- slots of Q; none once Q has committed and units remain to be classified (R260)
  items    : List Item     -- the items of Q that S staged, held until they are replaced (R250, R254)
  suspect  : Option Suspect
  fault    : Option ProgFault
  kind     : ReplayKind
  /-- implicated units whose same-hardware computation failed a check in the replay -/
  sameFails : List FaultUnit
  /-- the other-hardware computation failed a check in the replay -/
  otherFail : Bool
  /-- the same program fault recurred (R146) -/
  faultAgain : Option ProgFault
  measure  : Option Measure       -- of the step, where it counts as committed only with its replay
  /-- the hardware that the failing checks of the step implicated: each is computed twice (R255) -/
  units    : List FaultUnit
  provers  : List (FaultUnit × Nat)   -- prover or substitute of each in the replay (R255)
  tried    : List Nat      -- those of earlier replays of the step (R260)
  /-- failing checks of other units in a replay: classified in a later one (R260) -/
  later    : List Suspect
  deriving DecidableEq, Repr

/-- What a device's status message says of a step (R87). -/
structure Status where
  position : Nat           -- block position of the sender
  ready    : Bool
  stepNo   : Nat
  holds    : List Nat      -- slots held suspect (R19)
  holdAll  : Bool
  lost     : Bool          -- its pair is LOST (R320)
  paired   : Bool          -- its pair is PAIRED (R316)
  canSwitch : Bool         -- its arrays hold the rolling edition (R293)
  refused  : Tbl Nat       -- its refused broad requests by token position of the step (R90)
  deriving DecidableEq, Repr

/-- A decision of the entry device (R87). -/
structure Decision where
  commit  : Bool
  stepNo  : Nat
  holds   : List Nat
  holdAll : Bool
  adopt   : Bool           -- ADOPT (R320)
  switch_ : Bool           -- the rolling edition takes effect (R293)
  paired  : Bool           -- the step is a paired one (R316)
  refused : Bool           -- a device of the block refused a broad request (R92)
  deriving DecidableEq, Repr

/-- The record of a scratch page (R144): last writer, its epoch, readers of the epoch. -/
structure PageRec where
  writer : Option (Nat × Nat)
  readers : List (Nat × Nat)
  deriving DecidableEq, Repr

/-- A projection of the plan's table (R128). -/
structure Proj where
  id   : Nat
  nIn  : Nat
  nOut : Nat
  deriving DecidableEq, Repr

/-- What a plan index runs (R129). -/
structure CoreMap where
  role  : Nat
  slot  : Nat
  tiles : List Nat
  deriving DecidableEq, Repr

/-- A chain-mode receipt of a core as bound: its tag, its list's address, its count, its contributors as plan index and
array, and the chain order under the mapping in force (R109, R178). -/
structure Chain where
  pindex : Nat
  tag    : Nat
  addr   : Nat
  count  : Nat
  offs   : List (Nat × Nat)
  order  : List ChainTerm
  deriving DecidableEq, Repr

/-- A loaded plan as bound (R131, R132). -/
structure Plan where
  jobId    : Nat
  entry    : Bool
  edition  : Nat
  ttid     : Nat
  ncore    : Nat
  startAt  : Nat
  hbmKib   : Nat
  roles    : List (List W64)       -- instruction stores by role (R130)
  cores    : List CoreMap          -- by plan index, below NCORE
  lcores   : List Nat              -- logical cores by plan index, all the owned ones (R131)
  projs    : List Proj
  chains   : List Chain
  digest   : BitVec 256
  deriving DecidableEq, Repr

/-- The partner's held step as it was forwarded (R259): list, special registers, grants, payloads. -/
structure Insert where
  list     : List ListMsg
  special  : List (Nat × List W32)
  grants   : List (Nat × List Bool)
  payloads : List Payload
  deriving DecidableEq, Repr

/-- A job of a partition (chapter 4): its step, its decision, its policy and its blotter. -/
structure Job where
  stepNo    : Nat
  started   : Bool
  inStep    : Bool
  openStroke : Nat         -- number of the boundary that opened the step
  dueAt     : Nat          -- time of the status point at which the step is first due, in reference periods (R97)
  span      : Nat          -- boundaries passed since the step began, or restarted, without a COMMIT (R93)
  total     : Nat          -- boundaries passed since the step began; a restart goes on counting (R100)
  stretched : Bool         -- the step was stretched (R91, R92)
  partialPol : Bool        -- effective policy of the step is PARTIAL
  auto      : Bool
  refuseAll : Bool         -- every broad request is refused (restarted step, R93)
  abandoned : Bool         -- the step was abandoned once
  strRun    : Nat
  strCnt    : Nat
  cleanRun  : Nat
  lastSpan  : Nat
  halted    : Bool
  haltCause : Nat
  resumeReq : Bool
  unloading : Bool
  broadReq  : Nat
  broadRefused : Nat
  lastBroadReq : Nat
  lastBroadRefused : Nat
  refusedAt : Tbl Nat      -- refused requests of the step by token position of the step
  minSlack  : Int
  worstLcore : Nat
  slackOf   : Tbl Int      -- slack of each plan index in the last committed step
  reqList   : List ListEntry
  items     : List Item
  suspects  : List Suspect
  fault     : Option ProgFault
  hold      : Option Hold
  replaying : Bool
  barEpoch  : Nat
  pageRecs  : Tbl PageRec
  statuses  : List Status
  decision  : Option Decision
  statusSent : Option Status
  ordersDue : Bool         -- the last boundary committed a step: orders apply at this window (R225)
  payloads  : List Payload   -- Avgon payloads received in the step (R250)
  payloadsLeft : List Payload  -- those that a replay has not been given yet (R254, R259)
  freeRunHold : Bool
  numHold   : Bool
  /-- every device of the block is known to have loaded the job (R135) -/
  joined    : Bool
  heard     : List Nat     -- block positions heard of since the load, on the entry device
  listFixed : Bool
  returned  : Option (Bool × List Item)   -- what the buddy's inserted replay gave back (R259)
  inserted  : Option Insert  -- the partner's replay to be inserted at the next boundary (R259)
  inserting : Bool         -- the step that runs is the partner's (R259)
  guests    : List (Nat × Nat × Nat)  -- its requests: the partner's slot, the slot that holds the mirror meanwhile, its pages
  switchDue : Bool         -- the decision applied last switches the edition (R293)
  peersDue  : Bool         -- the other devices of the block have not all completed the job's reset (R343)
  broken    : Bool         -- its requests were adopted: no further step (R320)
  block     : List Nat     -- coordinates of the block's devices by position; this device's position is `pos`
  pos       : Nat
  deriving DecidableEq, Repr


/-! ### Weights (chapter 11) -/

/-- An image slot of a partition (R276): the image as bytes, and what the loader read of its header. -/
structure Image where
  edition  : Nat
  digest   : BitVec 256
  ntile    : Nat
  length   : Nat
  codeOff  : Nat
  /-- tile t: partition core index and array (R275) -/
  dir      : List (Nat × Nat)
  bytes    : List Host.Cell
  lost     : List Nat      -- tiles that cannot be read (R277)
  deriving DecidableEq, Repr

/-- Why an array is programmed (R280): which pool it uses and what follows. -/
inductive ProgWhy where
  | takeover | migration | offline | erase | rolling | verify | shadow | refresh
  deriving DecidableEq, Repr

/-- A queued or running programming (R279, R280). -/
structure Prog where
  pcore : Nat
  array : Nat
  why   : ProgWhy
  part  : Nat
  tile  : Nat              -- 0xFFFFFFFF: erase
  fromNext : Bool          -- codes from NEXT, otherwise from CURRENT
  tries : Nat
  repair : Bool            -- the slot it holds once started
  started : Bool
  shadowOf : Option Nat    -- array key it shadows (R287)
  out   : Bool             -- its array has left array service for it (R279)
  dueNo : Nat              -- order in which a refresh fell due (R280)
  deriving DecidableEq, Repr

/-- An edition change of a partition (R290, R292). -/
inductive Change where
  | none
  | offline
  | rollPending (at_ : Nat)
  | rolling
  deriving DecidableEq, Repr

/-- A version of a trim adapter (R67): int4 rows of A (element (k, i) at k * nIn + i) and of B (element (j, k) at j * rank + k) with their
fp32 scales. Rank 0 is none. -/
structure TrimVer where
  rank  : Nat
  nIn   : Nat
  nOut  : Nat
  a     : List Int
  alpha : List W32
  b     : List Int
  beta  : List W32
  deriving DecidableEq, Repr

/-- The fp32 master copies of A and B, and their offset in space 4 (R67). -/
structure TrimMasters where
  rank   : Nat
  a      : List W32
  b      : List W32
  offset : Nat
  deriving DecidableEq, Repr

/-- A captured position with its fair copy target, and its offset in space 4 (R69, R71). -/
structure TrimCapt where
  x      : List W32
  slices : List (W64 × List Int)
  y      : List W32
  target : List W32
  offset : Nat
  deriving DecidableEq, Repr

/-- A trim adapter of a projection (R67 to R71, R298). -/
structure Trim where
  en      : Bool
  rankMax : Nat
  active  : Bool
  last    : Nat
  accepted : Nat
  rejected : Nat
  version : TrimVer        -- the version in service
  offset  : Nat            -- its offset in space 4
  pending : Option (Nat × TrimVer)   -- accepted, to take effect at the next boundary, with its offset
  number  : Nat            -- number of the version in service since the last clearing
  masters : Option TrimMasters
  captures : List TrimCapt
  /-- image tiles that the captures show to be the projection's -/
  tiles   : List Nat
  /-- an event of R70 has taken effect: cleared at the next boundary at which no step runs on -/
  clearDue : Bool
  deriving DecidableEq, Repr

/-- An adapter slot (R74): its image and its directory word. -/
structure Adapter where
  image   : List Byte
  edition : Nat
  visible : Bool           -- usable by requests; its directory word is set (R76)
  offset  : Nat            -- offset of the image in space 4
  index   : Option Nat     -- offset of its projection index
  gone    : Bool           -- unloaded; its directory word is cleared at the next boundary
  deriving DecidableEq, Repr

/-- The WEIGHT page (R297) and the queue of programmings. -/
structure Weight where
  busy   : Option (Nat × Bool × Nat)   -- LOAD or RELOAD running: partition, reload, length in KiB
  result : Nat
  part   : Nat
  lastOp : Nat
  abandoned : Bool         -- the running load's partition was destroyed or reset with DISCARD (R441)
  queue  : List Prog
  /-- array keys of the shadows in SPARE cores, and the arrays they stand for (R287) -/
  shadows : List (Nat × Nat)
  refreshDone : Nat
  dueCtr : Nat             -- refreshes that have fallen due (R280)
  deriving DecidableEq, Repr

/-- A calibration order (R288). -/
structure Cal where
  busy   : Bool
  left   : List Nat        -- array keys not yet calibrated
  evals  : Nat             -- evaluations done of the array at the head
  passed : Nat
  failed : Nat
  lastPcore : Nat
  lastArray : Nat
  lastPass : Bool
  lastOutRange : Bool
  lastWhy : Nat
  deriving DecidableEq, Repr

/-! ### Links and pairs (chapter 12) -/

/-- States of a port (R326). -/
inductive PortState where
  | down | training | up | disabled | wiringErr
  deriving DecidableEq, Repr

/-- A slot of a link block that is not empty (R300). -/
structure LinkSlot where
  vc     : Nat
  header : Bool            -- it holds a packet header
  bits   : BitVec 512      -- byte i in bits [8i+7:8i]
  deriving DecidableEq, Repr

/-- A block sent, without its empty slots (R300). -/
structure SentBlock where
  seq      : Nat
  ack      : Nat
  nak      : Bool
  creditVc : Nat           -- the channel whose credits it returns
  credits  : Nat           -- in units of 4 slots
  slots    : List LinkSlot
  deriving DecidableEq, Repr

/-- One of the 12 ports (R299 to R303, R326). -/
structure Port where
  state    : PortState
  dir      : Nat
  peerPort : Nat
  peer     : Nat
  los      : Bool
  fec      : Nat
  crcFail  : Nat
  replay   : Nat
  downs    : Nat
  trains   : Nat
  rxSeq    : Nat           -- SEQ of the last block received intact
  nakPend  : Bool
  ackSeq   : Nat           -- last ACK received
  replays  : Nat           -- failed replays of the same block
  txSeq    : Nat           -- SEQ of the last block sent
  rx       : Tbl (List LinkSlot)   -- by virtual channel: slots received and not yet taken (R303)
  owed     : Tbl Nat               -- by virtual channel: slots taken whose credits the peer has not got back
  credits  : Tbl Nat               -- by virtual channel: slots that the peer can take
  tx       : Tbl (List LinkSlot)   -- by virtual channel: slots that wait for a block
  sent     : List SentBlock        -- the replay buffer: the last 64 blocks, oldest first (R301)
  deriving DecidableEq, Repr

/-- States of a pair (R319). -/
inductive PairState where
  | unpaired | sync | paired | solo | isolated | suspended | lost
  deriving DecidableEq, Repr

/-- The mirrored state of one of the partner's requests (R317). -/
structure Mirror where
  slot    : Slot
  pages   : Tbl KvPage     -- by LAYERS * block + layer
  adapterCrc : Option Nat
  deriving DecidableEq, Repr

/-- A partition's pair (R316 to R324). -/
structure Pair where
  state    : PairState
  jobPaired : Bool        -- the last committed step was paired (R327)
  hbAge    : Nat           -- in units of 100 us (R327)
  adopted  : Nat
  mirror   : Tbl Mirror    -- by the partner's slot
  /-- this device's own mirror data: acknowledged by the buddy (R318) -/
  sentAcked : Bool
  decisionAcked : Bool
  peerDecision : Bool      -- the partner's forwarded COMMIT has arrived
  adoptDue : Bool          -- LOST reported; adoption decided with the next COMMIT (R320)
  held     : List MirrorMsg     -- the partner's staged data, on the blotter (R318)
  caughtUp : Bool          -- the buddy holds all committed state (R319)
  peer     : Option BuddyTell   -- what the partner last told of its side (R316)
  peerEdition : Nat        -- the edition that it reports (R293, R316)
  deriving DecidableEq, Repr

/-- Device-wide link state (R327). -/
structure Link where
  coord    : Nat
  racks    : Nat
  valid    : Bool
  profile  : Nat
  buddy    : Nat
  buddyValid : Bool
  racksNext : Nat
  growArm  : Bool
  growAt   : Nat
  rtVersion : Nat
  rtUpdates : Nat
  nojob    : Nat
  badcrc   : Nat
  lostDevices : List Nat
  announced : List Nat     -- announcements already forwarded (R311)
  hbSent   : Nat
  deriving DecidableEq, Repr

/-! ### Partitions and the host (chapter 13) -/

/-- States of a partition (R347). -/
inductive PartState where
  | none | creating | ready | resetting | destroying
  deriving DecidableEq, Repr

/-- A pending PART order in the order of acceptance (R440). -/
inductive PartOrder where
  | create | destroy | shares
  deriving DecidableEq, Repr

/-- What a reset of a partition does (R341 to R344). -/
structure ResetRec where
  kind     : Nat           -- value of RESET_STAT.LAST
  discard  : Bool
  keepVf   : Bool          -- the VF's configuration space is left untouched
  bmeAtPoint : Bool
  termsDone : Bool
  deriving DecidableEq, Repr

/-- The configuration of a partition (R332, R347). -/
structure PartCfg where
  lbase   : Nat
  lcount  : Nat
  sbase   : Nat
  scount  : Nat
  quota   : Nat
  pages   : Nat
  scratch : Nat
  adapt   : Nat
  image   : Nat
  share0  : W32
  share1  : W32
  deriving DecidableEq, Repr

/-- PLAN page status (R151). -/
structure PlanStat where
  busy     : Nat           -- 0 idle, 1 load, 2 unload
  cmd      : W32           -- CMD, ADDR, LEN, START and JOB as they stood at GO
  addr     : Nat
  len      : Nat
  startAt  : Nat
  jobId    : Nat
  ttTol    : Bool
  budgetTol : Bool
  result   : Nat
  ncore    : Nat
  owned    : Nat
  entryIdx : Nat
  cp       : Nat
  limit    : Nat
  fault    : W32
  faultAddr : W64
  ttdiff   : W32
  deriving DecidableEq, Repr

/-- One partition and its virtual function. -/
structure Part where
  state    : PartState
  cfg      : PartCfg
  order    : Option PartOrder
  orderCfg : PartCfg       -- the staged values as the order was accepted with them
  result   : Nat
  /-- Bus Master Enable of the VF (R331) -/
  bme      : Bool
  rst      : Option ResetRec
  rstLast  : Nat
  rstTerms : Nat
  rstUnwritten : Bool
  intakeHold : Bool
  discardDue : Bool        -- a reset with DISCARD has completed; its discards follow at the next boundary (R344)
  /-- MSI-X (R338, R339): mask and pending bits by vector, writes counted since the last message, timers running -/
  msixMask : Tbl Bool
  msixPend : Tbl Bool
  modCount : Tbl Nat
  /-- scratch pool (space 1) -/
  scratch  : List Host.Cell
  plan     : Option Plan
  job      : Option Job
  pstat    : PlanStat
  /-- ADAPT page (R75) -/
  adBusy   : Option (Nat × Nat × Nat)   -- operation 1 load or 2 unload, slot, host address
  adResult : Nat
  adLast   : Nat
  adapters : Tbl Adapter
  adaptersNew : Tbl Adapter           -- loaded since the directory last changed (R76)
  trims    : Tbl Trim      -- by index in the projection table
  /-- serving (R244) -/
  tail     : Nat
  cqProd   : Nat
  cqQueue  : List Completion
  orders   : List Order
  waitStalled : Nat
  waitUnlisted : Nat
  badCons  : Nat
  badOrder : Nat
  regCount : Nat           -- registrations so far (R237)
  heldRecords : List (Nat × List Byte)   -- records committed while Bus Master Enable was 0: address, bytes (R331)
  pagesTotal : Nat
  pagesRetired : Nat
  pageBase : Nat           -- first page number of the partition's pool
  pages    : Tbl KvPage
  curImage : Option Image
  nextImage : Option Image
  edition  : Nat           -- edition served, 0 for none
  edDigest : BitVec 256
  change   : Change
  rollWait : Bool          -- an adapter in use held the switch back at the last boundary (R293)
  rollRaised : Bool        -- ROLL_WAIT has been raised for the change
  noAdapter : Bool         -- a ROLL is accepted: adapter-naming descriptors are refused (R292)
  pair     : Pair
  deriving DecidableEq, Repr


/-! ### Silent errors, sampling and proofs (chapter 10) -/

/-- What is recorded of one plan index of a sampled core (R261): checkpoint, values that entered, digest of those that left. -/
structure Trace where
  lcore  : Nat
  ckpt   : Arch
  vals   : List (List Byte)
  digest : W64
  deriving DecidableEq, Repr

/-- A sample of a core that a checker re-executes (R261 to R263). -/
structure Check where
  id      : Nat
  part    : Nat
  pcore   : Nat
  traces  : List Trace
  stroke  : Nat            -- stroke number of the boundary that ended the sampled step
  /-- the first checker and its digests, once it has found a mismatch -/
  first   : Option (Nat × List W64)
  checker : Nat
  deriving DecidableEq, Repr

/-- The last commit of a request (R264): slot, generation, stroke, and the stroke of the last one that was mirrored. -/
structure CommitRec where
  part   : Nat
  slot   : Nat
  gen    : Nat
  stroke : Nat
  mirrored : Option Nat
  deriving DecidableEq, Repr

/-- The counters of the INTEG page as of the last boundary (R274). -/
structure IntegShown where
  proofRounds : Nat
  proofFails  : Nat
  proofLate   : Nat
  sampleLate  : Nat
  sampleSkip  : Nat
  suspects    : Nat
  transients  : Nat
  permanents  : Nat
  frozen      : Nat
  pagesRetired : Nat
  deriving DecidableEq, Repr

/-- A taint report that waits to be written (R264): SOURCE 1 sampling, 2 proof; RESULT 0 pending, 1 transient, 2 permanent. -/
structure Taint where
  seq    : Nat
  source : Nat
  result : Nat
  part   : Nat
  mirrored : Bool          -- mirrored commits fall in the range; on the partner the buddy writes the report too
  prev   : Option Nat      -- SEQ of the report that it extends
  pcore  : Nat
  array  : Nat             -- 0xFFFF for core logic
  jobId  : Nat
  first  : Nat
  last   : Nat
  slots  : List (Nat × Nat)   -- slot and generation
  deriving DecidableEq, Repr

/-- The proof of a physical core under way (R265 to R268). -/
structure ProofRun where
  pcore   : Nat
  left    : List Nat       -- parts outstanding: 0 to 31 the arrays, 32 the engine
  busy    : Option Nat     -- the part that runs
  half    : Bool           -- the prover's half of it is complete
  since   : Nat            -- stroke at which the round of the core began
  subst   : Option Nat     -- the core that runs the role of the proved one (R267)
  failed  : List Nat       -- parts that failed once and are repeated on another prover
  seed    : W64            -- seed of the part that runs
  range   : Nat            -- its range shift (R265)
  /-- what the array's half of it delivered: codes, whether the checks passed, the junction temperature (R265, R266) -/
  result  : Option (List Int × Bool × Int)
  prover  : Nat            -- who computes the part's other half (R265)
  before  : Nat            -- who computed it the first time, when a part is repeated (R268)
  forced  : Nat            -- strokes in which outstanding parts were forced (R267)
  deriving DecidableEq, Repr

/-- A proof to be repeated: physical core, array, seed and range shift (R268). -/
structure Retry where
  pcore : Nat
  array : Nat
  seed  : W64
  range : Nat
  deriving DecidableEq, Repr

/-- The INTEG page's own state (R273, R274). -/
structure Integ where
  proof      : Option ProofRun
  proofNext  : List Nat
  proofSeed  : W64         -- proof counter (R265)
  proofRounds : Nat
  proofFails : Nat
  proofLate  : Nat
  /-- provers, and the arrays they serve (R255, R257, R286) -/
  provers    : List (Nat × Nat)
  checks     : List Check
  sampleLate : Nat
  sampleSkip : Nat
  suspects   : Nat
  transients : Nat
  permanents : Nat
  frozen     : Nat
  lastSusp   : W32
  lastStroke : Nat
  lastCause  : Nat
  taintProd  : Nat
  taintSeq   : Nat
  taints     : List Taint
  /-- transient faults by unit, with the stroke of each (R256) -/
  history    : List (FaultUnit × Nat)
  sampled    : List (Nat × Nat)    -- partition and physical core whose step is sampled (R261)
  /-- every request with something committed (R264) -/
  commits    : List CommitRec
  pagesRetired : Nat       -- HBM pages retired (R257, R274)
  /-- what reads of the counters return (R274) -/
  shown      : IntegShown
  nextId     : Nat
  /-- arrays whose TRACK_LIM was set, oldest first: the array events raised to the block (R35) -/
  arrayEvents : List Nat
  /-- proofs skipped: array key and stroke number (R156) -/
  skipped    : List (Nat × Nat)
  /-- proofs of APROOF that failed and are repeated on a prover (R165, R268) -/
  retries    : List Retry
  deriving DecidableEq, Repr

/-! ### Bring-up and clocks (chapter 14) -/

/-- A firmware bank of a partition's cores (R359, R360): manifest version, manifest digest, core image. -/
structure FwBank where
  version : Nat
  mfDigest : BitVec 256
  image   : List Byte
  deriving DecidableEq, Repr

/-- A live update of a partition (R359 to R361). -/
structure Fwup where
  state   : Nat            -- 0 IDLE, 1 PREPARING, 2 READY, 3 SWITCH_PEND, 4 FAILED
  result  : Nat
  round   : Nat
  pcore   : Nat
  at_     : Nat
  revert  : Bool
  standby : Option FwBank
  cand    : Option FwBank  -- image being broadcast (R359)
  active  : Option FwBank
  deriving DecidableEq, Repr

/-- What an order of a step finds that a step which does not complete puts back (R349): the converter's enable, the ports, the
transmitters' idle, whether strokes were ordered to run. -/
structure StepStart where
  convEn    : Bool
  convReady : Bool
  ports     : Tbl Port
  linkIdle  : Bool
  running   : Bool
  deriving DecidableEq, Repr

/-- The BRING page's own state (R348 to R364). -/
structure Bring where
  step     : Nat
  busy     : Bool
  fast     : Bool
  work     : Option BringWork
  start    : StepStart     -- what the running step found (R349)
  code     : Nat
  lastDone : Nat
  doneMap  : Nat           -- bit s: step s completed
  detail   : Nat
  elapsed  : Nat
  hbmOk    : Bool
  meshOk   : Bool
  arrayOk  : Bool
  bistAge  : Nat
  fwRounds : Nat
  fwMissing : Nat
  fwFenced : Nat
  slotB    : Bool
  verified : Nat           -- bit p: step 12 verified partition p's arrays
  boot     : Tbl Image     -- boot images by partition (R353)
  subst    : Tbl Nat       -- spares that took a number in this bring-up, and the core whose tiles the number stands for (R352, R358)
  retained : Tbl Image     -- image slots kept in HBM through a reset, by partition (R341, R353)
  fwup     : Tbl Fwup
  fwupPart : Nat           -- partition and result of the last order
  fwupResult : Nat
  coreImage : FwBank       -- core image that step 10 broadcast
  trimsLoaded : Bool       -- step 11 has loaded the trim records (R43)
  warm     : Bool          -- the last device reset was a warm one (R341)
  keepHbm  : Bool          -- what the last reset left for the markers of R356
  keepMesh : Bool
  keepArray : Bool
  lockStop : Bool          -- LOCK_LOST: every service stops at the next boundary (R351)
  deriving DecidableEq, Repr

/-- A clock domain (R365). -/
structure Domain where
  freqKhz : Nat
  lockT   : Nat
  losses  : Nat
  deriving DecidableEq, Repr

/-- The CLOCK page's own state (R365); `refOk` is at the STROKE page. -/
structure Clock where
  en   : Nat
  lock : Nat
  dom  : Tbl Domain
  deriving DecidableEq, Repr

/-! ### Identity and life-cycle (chapter 15) -/

/-- A request the security block holds (R375): source true for the management controller. -/
structure SecReq where
  mc       : Bool
  op       : Nat           -- 1 report, 2 certificate
  nonce    : List Byte
  pmask    : W32
  snapshot : Option (List Byte)
  deriving DecidableEq, Repr

/-- The security block (R366 to R379). -/
structure Sec where
  lcState  : Nat
  unlocked : Bool
  eraseDone : Bool
  eraseFail : Bool
  erasing  : Bool
  unlockCtr : Nat
  fwSvn    : Nat
  keySvn   : Nat
  revoked  : Nat
  serial   : W64
  ttid     : Nat
  reqs     : List SecReq   -- in order of arrival
  result   : Nat
  lastOp   : Nat
  slotA    : List Byte     -- bundles of the firmware slots
  slotB    : List Byte
  aValid   : Bool
  bValid   : Bool
  bootedB  : Bool
  degraded : Bool          -- step 6 ended DEGRADED
  slotWrite : Option (Bool × List Byte)
  seq      : Nat
  unlockLeft : Nat
  preferB  : Bool
  mcOut    : List (List Byte)     -- answers sent over MCTP, oldest first
  deriving DecidableEq, Repr

/-! ### Temperature, power and coolant (chapters 16 and 19) -/

/-- A temperature sensor (R380 to R385): latest reading in 1/16 degree C and the readings of the millisecond before,
newest first; whether the last sample reached the shut-down level. -/
structure Sensor where
  reading : Int
  past    : List Int
  failed  : Bool
  shut    : Bool
  deriving DecidableEq, Repr

/-- A sensor hub (R384 to R386, R392). -/
structure Hub where
  maxTemp  : Int
  maxSensor : Nat
  rateDiv  : Nat
  thDiv    : Nat
  holding  : Bool
  calm     : Nat           -- time since a rise of half the limit, in 1/16 ms
  hot      : Bool          -- a reading at or above its throttle level
  cool     : Bool          -- every reading below its throttle level less the hysteresis
  warn     : Bool
  blind    : Bool          -- no working core sensor (R383)
  deriving DecidableEq, Repr

/-- The THERM page's own state (R391, R436). -/
structure Therm where
  sensors  : Tbl Sensor
  hubs     : Tbl Hub
  maxTemp  : Int
  maxSensor : Nat
  fast     : Bool
  capW     : Nat
  capDiv   : Nat
  capMs    : Nat           -- milliseconds since the cap divider last stepped
  avgW     : Nat
  peakW    : Nat
  shutTemp : Nat
  shutSensor : Nat
  shutValid : Bool
  riseCnt  : Nat
  thrCnt   : Nat
  failedCnt : Nat
  flowRate : Nat
  flowValid : Bool
  edges    : List Nat      -- pulses by 100 ms, newest first, the running slot at the head
  leakExt  : Bool
  leakInt  : Bool
  leakLatched : Bool
  deriving DecidableEq, Repr

/-! ### Converter (chapter 17) -/

/-- A converter channel (R399, R403 to R405, R409). -/
structure Chan where
  code     : Int
  valid    : Bool
  limLo    : Bool
  limHi    : Bool
  calHold  : Bool
  sysCal   : Bool
  stampOff : Nat
  stampStroke : Nat
  zero     : Int           -- calibration record: zero and gain as a fraction
  gainNum  : Int
  gainDen  : Int
  recOk    : Bool
  sum      : Int           -- samples of a fast result so far
  count    : Nat
  startOff : Nat           -- where the window of the result in progress began
  startStroke : Nat
  deriving DecidableEq, Repr

/-- A modulator (R397): the channel it visits, where its window began, and the group or self-check the visit serves. -/
structure Modulator where
  chan     : Option Nat
  off      : Nat
  stroke   : Nat
  group    : Option Nat
  queued   : Option (Nat × Nat)   -- channel and group waiting behind the group that converts (R407)
  resume   : Option Nat           -- visit to repeat after the group
  deriving DecidableEq, Repr

/-- A calibration order of a channel (R404). -/
structure ConvCal where
  busy     : Bool
  chan     : Nat
  op       : Nat
  zero     : Option Int
  pass     : Bool
  why      : Nat
  deriving DecidableEq, Repr

/-- The CONV page's own state (R408, R409). -/
structure Conv where
  en       : Bool
  ready    : Bool
  early    : Nat
  coolIn   : Nat
  coolOut  : Nat
  inValid  : Bool
  outValid : Bool
  chans    : Tbl Chan
  mods     : Tbl Modulator
  groups   : Tbl (List Nat)      -- channels of a running group that have no result yet
  cal      : ConvCal
  selfFails : Nat
  selfTurn : Nat
  refSuspect : Bool
  droop    : Nat
  skipA    : Nat           -- samples of FC0 and FC1 still to be discarded (R400)
  skipB    : Nat
  powSum   : Int           -- calibrated FC2 samples of the millisecond
  powCnt   : Nat
  deriving DecidableEq, Repr

/-! ### HBM stacks (chapter 18) -/

/-- A memory stack (R426). -/
structure Stack where
  /-- addresses of the 4 KiB pages retired from their pools (R257) -/
  gone     : List Nat
  trained  : Bool
  restored : Bool
  refresh2x : Bool
  selfRefresh : Bool
  chanUp   : Nat
  rate     : Nat
  ce       : Nat
  ue       : Nat
  retired  : Nat
  errAddr  : Nat
  errUe    : Bool
  errChan  : Nat
  errSym   : Nat
  errPart  : Nat
  errReserve : Bool
  bwRd     : Nat
  bwWr     : Nat
  ceSecond : Nat           -- corrected errors of the running second
  deriving DecidableEq, Repr

/-! ### Register pages (chapter 18) -/

/-- A captured access (R410, R414). -/
structure Capt where
  offset : Nat
  kind   : Nat
  write  : Bool
  data   : W64
  source : Nat
  stroke : Nat
  deriving DecidableEq, Repr

/-- The header of a page (R410). -/
structure Page where
  irqEn  : Bool
  intRaw : W32
  intEn  : W32
  capt   : Option Capt
  errOvf : Bool
  deriving DecidableEq, Repr

/-- An MSI-X message sent (R338 to R340): function 0 is the PF, p + 1 the VF of partition p. -/
structure Msg where
  func   : Nat
  vector : Nat
  deriving DecidableEq, Repr

/-- Configuration of the physical function (R328, R331, R344), and its vectors' mask and pending bits (R339). -/
structure Pf where
  bme    : Bool
  vfEnable : Bool
  numVfs : Nat
  msixMask : Tbl Bool
  msixPend : Tbl Bool
  deriving DecidableEq, Repr

/-- The module's pins and supplies (R428 to R434). -/
structure Pins where
  perstN  : Bool
  pwrGood : Bool
  health  : Bool           -- the heartbeat runs
  faultN  : Bool           -- level of FAULT_N: false is asserted
  prsntN  : Bool
  regulators : Bool        -- core, stack and array write regulators on
  linkIdle : Bool          -- link transmitters in electrical idle
  selfTested : Bool        -- step 1 has completed with OK since power was applied (R429)
  pcieUp  : Bool
  deriving DecidableEq, Repr

/-! ### Strokes (chapter 4) -/

/-- States of the stroke time base (R99). -/
inductive StrokeState where
  | stopped | waitEpoch | locked | holdover | freeRun
  deriving DecidableEq, Repr

/-- The stroke time base (R77 to R82, R86, R99). -/
structure Stroke where
  /-- reference periods up to the last boundary, since strokes first ran -/
  base     : Nat
  count    : Nat
  number   : Nat
  state    : StrokeState
  periodAct : Nat
  layoutAct : W32
  epochWritten : Bool
  pend     : Option (Nat × W32 × Nat)    -- period, layout, stroke number
  refOk    : Bool
  syncOk   : Bool
  holdTicks : Nat
  slips    : Nat
  missed   : Nat           -- boundaries in a row that no pulse confirmed
  confirmed : Bool         -- the last boundary was confirmed
  resync   : Bool
  numErr   : Bool
  stopPend : Bool
  /-- reference periods since STKCLK locked, modulo 2^22, for stamps before strokes first reach LOCKED (R401) -/
  refTicks : Nat
  everLocked : Bool
  deriving DecidableEq, Repr

/-- SERVE counters (R245). -/
structure Serve where
  intakes  : Nat
  cancels  : Nat
  late     : Nat
  cancelLat : Nat
  deriving DecidableEq, Repr

/-- `LINK.PAIR_STAT` and `MIRROR` of a partition as of the last boundary (R327). -/
structure PairShown where
  state     : PairState
  jobPaired : Bool
  hbAge     : Nat
  adopted   : Nat
  pages     : Nat
  deriving DecidableEq, Repr

/-- What reads return as of the last boundary (R327, R347): pairs and states by partition, unallocated HBM in MiB, logical cores in no
partition. -/
structure Shown where
  pairs     : Tbl PairShown
  parts     : Tbl PartState
  hbmFree   : Nat
  coresFree : Nat
  deriving DecidableEq, Repr

/-! ### The whole machine -/

/-- The FZ1096 as its specification gives it. A table without an entry for a key stands for the key's reset value
(log entry 12). -/
structure State where
  /-- commands that wait, first in, first out -/
  pending  : List Instr
  arrays   : Tbl ArrayUnit
  pcores   : Tbl PCore
  remap    : Tbl Remap
  mesh     : Mesh
  slotsLig : Tbl (List LigFlit)       -- router ligature slots by physical core (R108)
  vcBuf    : Tbl (List Flit)          -- receive buffers of the routers, by 20 x router + 4 x port + virtual channel (R105)
  regions  : Tbl Region
  scribes  : Tbl Scribe
  slots    : Tbl Slot
  handles  : Tbl Handle
  parts    : Tbl Part
  partOrders : List Nat               -- partitions with a pending order, in order of acceptance (R440)
  weight   : Weight
  cal      : Cal
  ports    : Tbl Port
  link     : Link
  integ    : Integ
  bring    : Bring
  clock    : Clock
  sec      : Sec
  therm    : Therm
  conv     : Conv
  hbm      : Tbl Stack
  stroke   : Stroke
  serve    : Serve
  pf       : Pf
  pins     : Pins
  shut     : Bool                     -- shut down (R389)
  pages    : Tbl Page                 -- page headers by page number
  regs     : Tbl W32                  -- RW registers: 4096 * page number + offset
  arms     : List (Nat × Nat)         -- page number and source of each pending arm (R418)
  latches  : Tbl W32                  -- _HI latches: 64 * (4096 * page + offset) + source (R417)
  msgs     : List Msg                 -- messages sent, oldest first
  fuseBad  : List Nat                 -- physical cores the fuse map marks BAD (R352)
  remapRec : Tbl Nat                  -- the on-die remap record: logical number by physical core (R352)
  hostOut  : List Host.Cell           -- host memory as the device wrote it
  shown    : Shown                    -- values that reads return as of the last boundary
  freeCtr  : Nat                      -- the model's own counter of free values (log entry 3)
  deriving DecidableEq, Repr

/-! ### Reasons to stop -/

/-- Reasons a command stops the machine with a fault. The manual describes an effect for every command, so none is raised
by a meaning today; the type stands for the interface. -/
inductive Fault where
  /-- No command raises it: the manual names a trap or a fault state for each mistake, and the state holds them. Safe. -/
  | noFault
  deriving DecidableEq, Repr

/-- Reasons a command is refused. -/
inductive Refusal where
  /-- Raised by an arm of `exec` that has no meaning yet. Safe: the machine stops. -/
  | notModelled (mnemonic : String)
  deriving DecidableEq, Repr

/-! ### Values after reset -/

def TrackSums.zero : TrackSums := { evals := 0, pairs := [], temp := 0 }
def CheckLog.clear : CheckLog := { fail := false, win := false, unchk := false, chkCol := false, index := 0 }

/-- An array after a cold reset (R49, R278): no record, every cell at level 0. -/
def ArrayUnit.reset : ArrayUnit :=
  { trackHold := false, range := 0, gain := 32768, offs := 0, driftTh := 0x400, lastRes := 0,
    lastFail := false, lastUnchk := false, lastWin := false, chkCol := false, evCnt := 0, tTrk := 0, trackValid := false,
    trackLim := false, fenced := false, broken := false, eval := none, sums := TrackSums.zero, log := CheckLog.clear,
    resState := .empty, edition := 0, tile := 0, resPart := 0, writeCnt := 0, recOk := true, trimBad := false,
    trimStored := false, trimNew := false, cells := [], devs := [0, 0, 0, 0, 0, 0, 0], due := false, dueNo := 0, shadowed := false,
    verified := false, trims := [], nextTrims := [] }

/-- A physical core after a cold reset, before step 5 sets its state (R115, R352). -/
def PCore.reset : PCore :=
  { kind := .bad, lcore := 0, part := 0, rtrUp := false, portUp := 0, rtrFault := false, rtrKept := false, portKept := 0,
    faultKept := false, sramKept := [],
    sramCe := 0, sramUe := 0, sramLast := 0, sramLastUe := false, resFail := 0, retry := 0, discard := 0, slotHw := 0,
    ligTimeout := 0, ligChkFail := 0, chgFail := 0, winFail := 0, unchk := 0, tCal := 0, tCalRec := 0, takeFrom := 0,
    takeWhy := .replace, fwVersion := 0, lastSample := 0, sampleRuns := 0, sampleNext := false, taintOpen := none,
    lastProof := 0 }

def Remap.reset : Remap := { pcore := 0, mode := .unused, host := 0, part := 0, next := none }

def Mesh.reset : Mesh :=
  { spareTotal := 0, good := 0, rtVersion := 0, rtUpdates := 0, fenceBusy := false, fenceOp := 0, fencePcore := 0,
    fenceResult := 0, fenceSpare := 0, faultPcore := 0, faultPort := 0, faultKind := 0, linksDown := 0,
    rtPending := false, lostFor := [], routes := [], edgeDown := [] }

/-- A region after reset: full rate, every crossing mesochronous (R113, R114, R127). -/
def Region.reset : Region :=
  { div := 16, src := 0, xv := false, xe := false, xw := false, count := 0, divNext := none }

def Arch.reset : Arch := { g := [], a := [], v := [], t := [], p := [], epoch := 0, halted := false }

def Scribe.reset : Scribe :=
  { mode := .idle, part := 0, pindex := 0, role := 0, nInstr := 0, pc := 0, loops := [], arch := Arch.reset,
    ckpt := Arch.reset, special := [], sram := [], txs := [], sends := [], recvs := [], arrived := [], receipts := [],
    flits := [], digest := 0#64, recorded := none, atBar := false, grants := [], broadLog := [], broadReplay := [],
    wstrkAt := none, traced := false, trace := [], outDig := BitVec.allOnes 64 }

def Desc.zero : Desc :=
  { kind := 0, withdraw := 0, flags := 0, priority := 0, adapter := 0, specLen := 0, hostTag := 0#64, handle := 0#64,
    promptAddr := 0, promptLen := 0, maxTokens := 0, scrollAddr := 0, consumedAddr := 0, standbyAddr := 0,
    standbyConsumed := 0, scrollLen := 0, ttlMs := 0, parkAddr := 0, parkKib := 0, seed := 0#64, params := [],
    reservedOk := true }

def Slot.reset : Slot :=
  { state := .free, gen := 0, part := 0, desc := Desc.zero, priority := 0, prefixLen := 0, promptDone := 0,
    position := 0, nextSeq := 0, lastToken := 0, consumed := 0, stalled := false, lastListed := 0, handle := none,
    kvMap := [], reserved := 0, stateArea := [], frozen := false, cancel := none,
    cancelTag := 0, before := .free, copyDone := false, pagesReady := false, pagesHeld := false, readFailed := false, resumeCtrl := 0,
    resumedFlag := false, resumedOwed := false, resumedNew := false, lastEndGen := none,
    lastEndSeq := 0, expired := false, parked := [],
    takeover := false, base := 0 }

def KvPage.reset : KvPage := { part := 0, owner := .free, pos := [], data := [] }

def Handle.reset : Handle :=
  { state := .free, gen := 0, part := 0, count29 := 0, users := 0, prefixLen := 0, pages := [], ttl := 0, edition := 0,
    hostTag := 0#64, slot := 0, slotGen := 0, expired := false, quiet := false, owed := false, peerSealed := false }

def Weight.reset : Weight :=
  { busy := none, result := 0, part := 0, lastOp := 0, abandoned := false, queue := [], shadows := [], refreshDone := 0,
    dueCtr := 0 }

def Cal.reset : Cal :=
  { busy := false, left := [], evals := 0, passed := 0, failed := 0, lastPcore := 0, lastArray := 0, lastPass := false,
    lastOutRange := false, lastWhy := 0 }

def Port.reset : Port :=
  { state := .down, dir := 7, peerPort := 0, peer := 0, los := false, fec := 0, crcFail := 0, replay := 0, downs := 0,
    trains := 0, rxSeq := 0, nakPend := false, ackSeq := 0, replays := 0,
    txSeq := 0, rx := [], owed := [], credits := [], tx := [], sent := [] }

def Pair.reset : Pair :=
  { state := .unpaired, jobPaired := false, hbAge := 0, adopted := 0, mirror := [], sentAcked := false,
    decisionAcked := false, peerDecision := false, adoptDue := false, held := [],
    caughtUp := false, peer := none, peerEdition := 0 }

def Link.reset : Link :=
  { coord := 0, racks := 0, valid := false, profile := 0, buddy := 0, buddyValid := false, racksNext := 0,
    growArm := false, growAt := 0, rtVersion := 0, rtUpdates := 0, nojob := 0, badcrc := 0, lostDevices := [],
    announced := [], hbSent := 0 }

def PartCfg.zero : PartCfg :=
  { lbase := 0, lcount := 0, sbase := 0, scount := 0, quota := 0, pages := 0, scratch := 0, adapt := 0, image := 0,
    share0 := 0x10101010#32, share1 := 0x00001010#32 }

def PlanStat.reset : PlanStat :=
  { busy := 0, cmd := 0#32, addr := 0, len := 0, startAt := 0, jobId := 0, ttTol := false, budgetTol := false,
    result := 0, ncore := 0, owned := 0, entryIdx := 0, cp := 0, limit := 0, fault := 0#32, faultAddr := 0#64,
    ttdiff := 0#32 }

/-- A partition number that no partition has (R334, R347). -/
def Part.reset : Part :=
  { state := .none, cfg := PartCfg.zero, order := none, orderCfg := PartCfg.zero, result := 0,
    bme := false, rst := none, rstLast := 0, rstTerms := 0, rstUnwritten := false, intakeHold := false, discardDue := false,
    msixMask := [], msixPend := [], modCount := [], scratch := [], plan := none, job := none, pstat := PlanStat.reset, adBusy := none,
    adResult := 0, adLast := 0, adapters := [], adaptersNew := [], trims := [], tail := 0, cqProd := 0, cqQueue := [], orders := [],
    waitStalled := 0, waitUnlisted := 0, badCons := 0, badOrder := 0, regCount := 0, heldRecords := [],
    pagesTotal := 0, pagesRetired := 0, pageBase := 0, pages := [], curImage := none, nextImage := none, edition := 0,
    edDigest := 0#256, change := .none, rollWait := false, rollRaised := false, noAdapter := false,
    pair := Pair.reset }

def IntegShown.zero : IntegShown :=
  { proofRounds := 0, proofFails := 0, proofLate := 0, sampleLate := 0, sampleSkip := 0, suspects := 0, transients := 0,
    permanents := 0, frozen := 0, pagesRetired := 0 }

def Integ.reset : Integ :=
  { proof := none, proofNext := [], proofSeed := 0#64, proofRounds := 0, proofFails := 0, proofLate := 0, provers := [], checks := [],
    sampleLate := 0, sampleSkip := 0, suspects := 0, transients := 0, permanents := 0, frozen := 0, lastSusp := 0#32,
    lastStroke := 0, lastCause := 0, taintProd := 0, taintSeq := 0, taints := [], history := [],
    sampled := [], commits := [], pagesRetired := 0, shown := IntegShown.zero, nextId := 0, arrayEvents := [],
    skipped := [], retries := [] }

def FwBank.empty : FwBank := { version := 0, mfDigest := 0#256, image := [] }

def Fwup.reset : Fwup :=
  { state := 0, result := 0, round := 0, pcore := 0, at_ := 0, revert := false, standby := none, cand := none, active := none }

def StepStart.reset : StepStart := { convEn := false, convReady := false, ports := [], linkIdle := true, running := false }
def Bring.reset : Bring :=
  { step := 0, busy := false, fast := false, work := none, start := StepStart.reset, code := 0, lastDone := 0, doneMap := 0, detail := 0,
    elapsed := 0, hbmOk := false, meshOk := false, arrayOk := false, bistAge := 0, fwRounds := 0, fwMissing := 0,
    fwFenced := 0, slotB := false, verified := 0, boot := [], subst := [], retained := [], fwup := [], fwupPart := 0, fwupResult := 0,
    coreImage := FwBank.empty, trimsLoaded := false, warm := false, keepHbm := false,
    keepMesh := false, keepArray := false, lockStop := false }

def Domain.reset : Domain := { freqKhz := 0, lockT := 0, losses := 0 }
def Clock.reset : Clock := { en := 0x110000, lock := 0x110000, dom := [] }

/-- The security block of a shipped part (R376): SEALED. The fused counters, the serial number and the stepping are the
model's choice (log entry 13). -/
def Sec.reset : Sec :=
  { lcState := 1, unlocked := false, eraseDone := false, eraseFail := false, erasing := false, unlockCtr := 0,
    fwSvn := 0, keySvn := 0, revoked := 0, serial := 0#64, ttid := 0x00C0, reqs := [], result := 0, lastOp := 0,
    slotA := [], slotB := [], aValid := false, bValid := false, bootedB := false, degraded := false, slotWrite := none,
    seq := 0, unlockLeft := 0, preferB := false, mcOut := [] }

def Sensor.reset : Sensor := { reading := 0, past := [], failed := false, shut := false }
def Hub.reset : Hub :=
  { maxTemp := 0, maxSensor := 0, rateDiv := 16, thDiv := 16, holding := false, calm := 0, hot := false, cool := true,
    warn := false, blind := false }
def Therm.reset : Therm :=
  { sensors := [], hubs := [], maxTemp := 0, maxSensor := 0, fast := false, capW := 0, capDiv := 16, capMs := 0,
    avgW := 0, peakW := 0, shutTemp := 0, shutSensor := 0, shutValid := false, riseCnt := 0, thrCnt := 0,
    failedCnt := 0, flowRate := 0, flowValid := false, edges := [], leakExt := false, leakInt := false,
    leakLatched := false }

/-- A converter channel with factory calibration: unit gain, zero offset (R405). -/
def Chan.reset : Chan :=
  { code := 0, valid := false, limLo := false, limHi := false, calHold := false, sysCal := false,
    stampOff := 0, stampStroke := 0, zero := 0, gainNum := 1, gainDen := 1, recOk := true, sum := 0, count := 0,
    startOff := 0, startStroke := 0 }
def Modulator.reset : Modulator :=
  { chan := none, off := 0, stroke := 0, group := none, queued := none, resume := none }
def ConvCal.reset : ConvCal :=
  { busy := false, chan := 0, op := 0, zero := none, pass := false, why := 0 }
def Conv.reset : Conv :=
  { en := false, ready := false, early := 0, coolIn := 0, coolOut := 0, inValid := false, outValid := false, chans := [],
    mods := [], groups := [], cal := ConvCal.reset, selfFails := 0, selfTurn := 0, refSuspect := false,
    droop := 0, skipA := 0, skipB := 0, powSum := 0, powCnt := 0 }

def Stack.reset : Stack :=
  { gone := [], trained := false, restored := false, refresh2x := false, selfRefresh := false, chanUp := 0, rate := 0, ce := 0,
    ue := 0, retired := 0, errAddr := 0, errUe := false, errChan := 0, errSym := 0, errPart := 0, errReserve := false,
    bwRd := 0, bwWr := 0, ceSecond := 0 }

/-- A page header after reset: IRQ_EN is 1, everything else 0 (R410). -/
def Page.reset : Page := { irqEn := true, intRaw := 0#32, intEn := 0#32, capt := none, errOvf := false }

def Stroke.reset : Stroke :=
  { base := 0, count := 0, number := 0, state := .stopped, periodAct := 40000, layoutAct := 0x28191008#32,
    epochWritten := false, pend := none, refOk := false, syncOk := false, holdTicks := 0, slips := 0, missed := 0,
    confirmed := false, resync := false, numErr := false, stopPend := false,
    refTicks := 0, everLocked := false }

def Serve.reset : Serve := { intakes := 0, cancels := 0, late := 0, cancelLat := 0 }
def Pf.reset : Pf := { bme := false, vfEnable := false, numVfs := 0, msixMask := [], msixPend := [] }

/-- The pins with 54 V applied and PERST_N released (R428, R429; log entry 9). -/
def Pins.reset : Pins :=
  { perstN := true, pwrGood := true, health := false, faultN := false, prsntN := false, regulators := true,
    linkIdle := true, selfTested := false, pcieUp := true }

def PairShown.reset : PairShown := { state := .unpaired, jobPaired := false, hbAge := 0, adopted := 0, pages := 0 }
def Shown.reset : Shown := { pairs := [], parts := [], hbmFree := 0xBC000, coresFree := 0x400 }

/-- The block right after a cold device reset (R341, R423): every register at the value its field table gives. -/
def State.reset : State :=
  { pending := [], arrays := [], pcores := [], remap := [], mesh := Mesh.reset, slotsLig := [], vcBuf := [], regions := [],
    scribes := [], slots := [], handles := [], parts := [], partOrders := [], weight := Weight.reset, cal := Cal.reset,
    ports := [], link := Link.reset, integ := Integ.reset, bring := Bring.reset, clock := Clock.reset, sec := Sec.reset,
    therm := Therm.reset, conv := Conv.reset, hbm := [], stroke := Stroke.reset, serve := Serve.reset,
    pf := Pf.reset, pins := Pins.reset, shut := false, pages := [], regs := [], arms := [], latches := [], msgs := [],
    fuseBad := [], remapRec := [], hostOut := [], shown := Shown.reset, freeCtr := 0 }

end Sys2Proof.Machine
end

