-- ==== Sys2Proof/Machine/Ops.lean ====
section
/-! DEFINITION. Operations that every family shares: the tables of the state, register pages and their reach, events and
messages, captures and arms, free values, and the passing of a reference period. -/

namespace Sys2Proof.Machine

/-! ### Tables of the state -/

def State.array (s : State) (k : Nat) : ArrayUnit := Tbl.getD s.arrays k ArrayUnit.reset
def State.setArray (s : State) (k : Nat) (a : ArrayUnit) : State := { s with arrays := Tbl.set s.arrays k a }
def State.pcore (s : State) (c : Nat) : PCore := Tbl.getD s.pcores c PCore.reset
def State.setPcore (s : State) (c : Nat) (x : PCore) : State := { s with pcores := Tbl.set s.pcores c x }
def State.remapOf (s : State) (l : Nat) : Remap := Tbl.getD s.remap l Remap.reset
def State.setRemap (s : State) (l : Nat) (x : Remap) : State := { s with remap := Tbl.set s.remap l x }
def State.region (s : State) (r : Nat) : Region := Tbl.getD s.regions r Region.reset
def State.setRegion (s : State) (r : Nat) (x : Region) : State := { s with regions := Tbl.set s.regions r x }
def State.scribe (s : State) (l : Nat) : Scribe := Tbl.getD s.scribes l Scribe.reset
def State.setScribe (s : State) (l : Nat) (x : Scribe) : State := { s with scribes := Tbl.set s.scribes l x }
def State.slot (s : State) (n : Nat) : Slot := Tbl.getD s.slots n Slot.reset
def State.setSlot (s : State) (n : Nat) (x : Slot) : State := { s with slots := Tbl.set s.slots n x }
def State.handle (s : State) (n : Nat) : Handle := Tbl.getD s.handles n Handle.reset
def State.setHandle (s : State) (n : Nat) (x : Handle) : State := { s with handles := Tbl.set s.handles n x }
def State.part (s : State) (p : Nat) : Part := Tbl.getD s.parts p Part.reset
def State.setPart (s : State) (p : Nat) (x : Part) : State := { s with parts := Tbl.set s.parts p x }
def State.updPart (s : State) (p : Nat) (f : Part → Part) : State := s.setPart p (f (s.part p))
def State.port (s : State) (n : Nat) : Port := Tbl.getD s.ports n Port.reset
def State.setPort (s : State) (n : Nat) (x : Port) : State := { s with ports := Tbl.set s.ports n x }
def State.stack (s : State) (k : Nat) : Stack := Tbl.getD s.hbm k Stack.reset
def State.setStack (s : State) (k : Nat) (x : Stack) : State := { s with hbm := Tbl.set s.hbm k x }
def State.page (s : State) (n : Nat) : Page := Tbl.getD s.pages n Page.reset
def State.setPage (s : State) (n : Nat) (x : Page) : State := { s with pages := Tbl.set s.pages n x }
def State.job (s : State) (p : Nat) : Option Job := (s.part p).job
def State.setJob (s : State) (p : Nat) (j : Job) : State := s.updPart p (fun x => { x with job := some j })
/-- Changes the job of partition `p`; nothing where none is loaded. -/
def State.updJob (s : State) (p : Nat) (f : Job → Job) : State :=
  match s.job p with
  | none => s
  | some j => s.setJob p (f j)

/-- Arrays of the core may evaluate: in mode ARRAYS, and in FAIRCOPY, where the arrays of a spare return one by one (R116, R120). -/
def arraysAct (s : State) (l : Nat) : Bool := (s.remapOf l).mode == .arrays || (s.remapOf l).mode == .fairCopy

/-- A counter of `w` bits that saturates. -/
def sat (w n : Nat) : Nat := min n (2 ^ w - 1)

/-- Logical cores, physical cores, arrays, partitions of the device (R10, R11, R115). -/
def numPcores : Nat := 1152
def numLcores : Nat := 1024
def numArrays : Nat := 36864
def numParts : Nat := 32
def numSlots : Nat := 65536
def numHandles : Nat := 16384

/-- The next free value (log entry 3): the manual leaves it open, and it is a natural number below `n`. -/
def State.freeNat (s : State) (n : Nat) : Nat := Config.freeNat s.freeCtr % n
def State.nextFree (s : State) : State := { s with freeCtr := s.freeCtr + 1 }

/-! ### Pages (R411, R419, R420) -/

def pgFunc (p : Nat) : Nat := 256 * p
def pgReq (p : Nat) : Nat := 256 * p + 2
def pgAdapt (p : Nat) : Nat := 256 * p + 4
def pgPlan (p : Nat) : Nat := 256 * p + 5
def pgDev : Nat := 0x2000
def pgBring : Nat := 0x2001
def pgClock : Nat := 0x2002
def pgStroke : Nat := 0x2003
def pgMesh : Nat := 0x2004
def pgRegion (r : Nat) : Nat := 0x2010 + r
def pgHbm (k : Nat) : Nat := 0x2018 + k
def pgLink (n : Nat) : Nat := 0x2020 + n
def pgTherm : Nat := 0x2030
def pgConv : Nat := 0x2031
def pgSec : Nat := 0x2032
def pgInteg : Nat := 0x2033
def pgWeight : Nat := 0x2034
def pgServe : Nat := 0x2035
def pgCal : Nat := 0x2036
def pgPart : Nat := 0x2037
def pgCore (c : Nat) : Nat := 0x3000 + c

/-- Block type code and instance of a page number; none for a page that the map leaves unassigned (R411, R419, R420). -/
def pageKind (n : Nat) : Option (Nat × Nat) :=
  if n < 0x2000 then
    match n % 256 with
    | 0 => some (18, n / 256)
    | 2 => some (19, n / 256)
    | 4 => some (20, n / 256)
    | 5 => some (21, n / 256)
    | _ => none
  else if n < 0x2038 then
    let i := n - 0x2000
    if i < 5 then some (i + 1, 0)
    else if 0x10 ≤ i ∧ i < 0x18 then some (6, i - 0x10)
    else if 0x18 ≤ i ∧ i < 0x20 then some (7, i - 0x18)
    else if 0x20 ≤ i ∧ i < 0x2C then some (8, i - 0x20)
    else if 0x30 ≤ i then some (i - 0x30 + 9, 0)
    else none
  else if 0x3000 ≤ n ∧ n < 0x3000 + 1152 then some (17, n - 0x3000)
  else none

/-- The partition a page belongs to, if it is a partition page (R420). -/
def pagePart (n : Nat) : Option Nat := if n < 0x2000 then some (n / 256) else none

/-! ### Writable registers -/

/-- The limits of a converter channel after reset, low half LOW and high half HIGH (R393, R403; log entry 21). -/
def limReset (n : Nat) : Nat :=
  let pair (lo hi : Int) : Nat := (BitVec.ofInt 16 lo).toNat + 65536 * (BitVec.ofInt 16 hi).toNat
  match n with
  | 0 => pair 80 720
  | 1 => pair 80 960
  | 2 => pair 20480 30720
  | 3 => pair 0 26214
  | 4 => pair 16384 18022
  | 5 => pair 16384 18022
  | 6 => pair 11633 12943
  | 7 => pair 11633 12943
  | 8 => pair 14008 15483
  | 9 => pair 25395 28672
  | 10 => pair 11469 13926
  | 11 => pair 11469 13926
  | 12 => pair 16345 16423
  | 13 => pair 22413 24773
  | 14 => pair (-32768) 32767
  | 15 => pair (-131) 131
  | 16 => pair 0x9C4 (-1)
  | 17 => pair 0x9C4 (-1)
  | _ => pair 0 (-1)

/-- The value of the writable bits of a register after reset (R423). -/
def regReset (typ off : Nat) : Nat :=
  match regAt typ off with
  | none => 0
  | some (r, inst) => if typ = 10 ∧ r.off = 0x10C then limReset inst else r.rst

/-- Where the writable bits of a register stand. Offsets 0x100 to 0x13F of every LINK page are the same registers (R326),
and those that `LINK.JOB_SEL` selects stand once for each partition (R327). -/
def regKey (s : State) (page off : Nat) : Nat :=
  if 0x2020 ≤ page ∧ page < 0x202C ∧ 0x100 ≤ off ∧ off < 0x140 then
    let base := 0x2020 * 4096 + off
    if 0x124 ≤ off ∧ off ≤ 0x12C then
      base + 2 ^ 32 * (1 + (Tbl.getD s.regs (0x2020 * 4096 + 0x120) 0#32).toNat)
    else base
  else page * 4096 + off

/-- The RW and RWA bits of a register. -/
def State.reg (s : State) (page off : Nat) : W32 :=
  Tbl.getD s.regs (regKey s page off)
    (BitVec.ofNat 32 (match pageKind page with
      | some (typ, _) => regReset typ off
      | none => 0))

def State.setReg (s : State) (page off : Nat) (v : W32) : State :=
  { s with regs := Tbl.set s.regs (regKey s page off) v }

/-- Bits [lo + w - 1 : lo] of a register as a number. -/
def State.field (s : State) (page off lo w : Nat) : Nat := ((s.reg page off).extractLsb' lo w).toNat
/-- A 64-bit pair of RW registers, as it stands now (R417). -/
def State.pair (s : State) (page lo hi : Nat) : Nat := (s.reg page lo).toNat + 2 ^ 32 * (s.reg page hi).toNat

/-- A register that a link partition selection addresses (R327): as `State.reg`, for partition `p`. -/
def State.jobReg (s : State) (p off : Nat) : W32 :=
  Tbl.getD s.regs (0x2020 * 4096 + off + 2 ^ 32 * (1 + p))
    (BitVec.ofNat 32 (regReset 8 off))

/-- From the reset point of a partition to the completion of its reset, its VF is cut off (R342); a reset ordered on another device
of the job leaves the VF alone (R343). -/
def Part.resetting (x : Part) : Bool := match x.rst with
  | some r => r.kind != 4
  | none => false

/-! ### Messages and events (R338 to R340, R412, R413) -/

/-- The vector of the PF that carries a device-global page (R340). -/
def pfVector (page : Nat) : Option Nat :=
  match pageKind page with
  | some (typ, _) => if 2 ≤ typ ∧ typ ≤ 16 then some (typ - 2) else none
  | none => none

/-- Function and vectors that carry the bits of a page; function 0 is the PF, p + 1 the VF of partition p. -/
def vectorsOf (page : Nat) (bits : W32) : List (Nat × Nat) :=
  match pageKind page with
  | some (18, p) =>
    (if bits &&& 0x110#32 ≠ 0#32 then [(p + 1, 0)] else [])
    ++ (if bits &&& 0x0F#32 ≠ 0#32 then [(p + 1, 1)] else [])
    ++ (if bits &&& 0xE0#32 ≠ 0#32 then [(p + 1, 2)] else [])
  | some (19, p) => if bits ≠ 0#32 then [(p + 1, 0)] else []
  | some (20, p) => if bits ≠ 0#32 then [(p + 1, 0)] else []
  | some (21, p) => if bits ≠ 0#32 then [(p + 1, 0)] else []
  | _ =>
    match pfVector page with
    | some v => if bits ≠ 0#32 then [(0, v)] else []
    | none => []

/-- Sends the message of a vector, or holds it as pending while the vector is masked or Bus Master Enable is 0 (R339).
From the reset point of a partition to the completion of its reset, its VF sends none (R342). A vector is masked until it is unmasked, as
the PCI Express rules have it (log entry 44). -/
def sendMsg (s : State) (fv : Nat × Nat) : State :=
  if fv.1 = 0 then
    if s.pf.bme && !Tbl.getD s.pf.msixMask fv.2 true then { s with msgs := s.msgs ++ [{ func := 0, vector := fv.2 }] }
    else { s with pf := { s.pf with msixPend := Tbl.set s.pf.msixPend fv.2 true } }
  else
    let p := fv.1 - 1
    let x := s.part p
    if x.resetting then s
    else if x.bme && !Tbl.getD x.msixMask fv.2 true then
      { s with msgs := s.msgs ++ [{ func := fv.1, vector := fv.2 }] }
    else s.setPart p { x with msixPend := Tbl.set x.msixPend fv.2 true }

/-- Sets `INT_RAW` bits of one page; answers the vectors whose covered bits rose. -/
def setRaw (acc : State × List (Nat × Nat)) (pb : Nat × Nat) : State × List (Nat × Nat) :=
  let s := acc.1
  let pg := s.page pb.1
  let bits := BitVec.ofNat 32 pb.2
  let rose := if pg.irqEn then bits &&& ~~~pg.intRaw &&& pg.intEn else 0#32
  (s.setPage pb.1 { pg with intRaw := pg.intRaw ||| bits }, acc.2 ++ vectorsOf pb.1 rose)

/-- Events of one cycle: `INT_RAW` bits of pages, and one message for each vector that covers a rising bit (R412). -/
def raiseAll (s : State) (evs : List (Nat × Nat)) : State :=
  let r := evs.foldl setRaw (s, [])
  r.2.dedup.foldl sendMsg r.1

/-- One event: bit number `bit` of `INT_RAW` of a page. -/
def raise (s : State) (page bit : Nat) : State := raiseAll s [(page, 2 ^ bit)]

/-! ### Reach, captures and arms (R410, R414, R416, R418, R421, R422) -/

/-- Captures an erroneous access: the first in `ERR_CAPT`, further ones only in `ERR_OVF` (R414). -/
def capture (s : State) (page off kind : Nat) (write : Bool) (data : W64) (src : Nat) : State :=
  let pg := s.page page
  match pg.capt with
  | some _ => s.setPage page { pg with errOvf := true }
  | none =>
    s.setPage page { pg with capt := some { offset := off, kind := kind, write := write, data := data, source := src,
                                            stroke := s.stroke.number % 65536 } }

/-- Whether a page is reachable at all (R422): DEV, BRING, CLOCK, THERM and CONV from the deassertion of PERST_N, every
other page once step 4 has completed (log entry 109); a partition page only while the partition exists (R420). -/
def pageLive (s : State) (page : Nat) : Bool :=
  s.pins.perstN && s.pins.pwrGood && s.pins.pcieUp && !s.shut
  && match pageKind page with
    | none => false
    | some (typ, inst) =>
      ([1, 2, 3, 9, 10].contains typ || s.bring.doneMap.testBit 4)
      && (decide (typ < 18) || ((s.part inst).state != .none && (s.part inst).state != .creating))

/-- Whether writes of a source reach a page (R376, R420, R421): the PF all pages, a VF its partition's, the debug connector
as the life-cycle state says; none to a partition's page while the partition is being reset. -/
def canWrite (s : State) (src page : Nat) : Bool :=
  pageLive s page
  && (match pagePart page with
      | some p => !(s.part p).resetting
      | none => true)
  && (if src = 0 then true
      else if src ≤ 32 then pagePart page == some (src - 1)
      else if src = 34 then s.sec.lcState == 0 || (s.sec.lcState == 2 && s.sec.eraseDone)
      else false)

def armed (s : State) (src page : Nat) : Bool := s.arms.contains (page, src)
def disarm (s : State) (src page : Nat) : State := { s with arms := s.arms.filter (fun a => a != (page, src)) }

/-- A write that carries an order in a register without arm: its RW bits are kept, and the order acts (R415). -/
def orderWrite (s : State) (src page off : Nat) (data : W32) (act : State → State) : State :=
  if !canWrite s src page then s
  else
    match pageKind page with
    | none => s
    | some (typ, _) =>
      match regAt typ off with
      | none => s
      | some (r, _) => act (s.setReg page off (data &&& BitVec.ofNat 32 r.rw))

/-- An armed order (R418): without a pending arm of the source it is captured with KIND 1 and ignored; an accepted write
consumes the arm. GO, bit 31, reads 0. -/
def armedWrite (s : State) (src page off : Nat) (data : W32) (act : State → State) : State :=
  if !canWrite s src page then s
  else if !armed s src page then capture s page off 1 true (data.zeroExtend 64) src
  else
    match pageKind page with
    | none => s
    | some (typ, _) =>
      match regAt typ off with
      | none => s
      | some (r, _) => act ((disarm s src page).setReg page off (data &&& BitVec.ofNat 32 (r.rwa % 2 ^ 31)))

/-! ### Geometry of the mesh (R10, R12, R13) -/

def coreRow (c : Nat) : Nat := c / 36
def coreCol (c : Nat) : Nat := c % 36
/-- The clock region of a physical core: four bands of 9 columns, north and south halves of 16 rows (R12). -/
def coreRegion (c : Nat) : Nat := coreCol c / 9 + 4 * (coreRow c / 16)
def coreDist (a b : Nat) : Nat :=
  (coreRow a - coreRow b) + (coreRow b - coreRow a) + ((coreCol a - coreCol b) + (coreCol b - coreCol a))

/-! ### Time -/

/-- Strokes run in every state but STOPPED and WAIT_EPOCH (R79, R99). -/
def strokesRun (s : State) : Bool :=
  match s.stroke.state with
  | .stopped => false
  | .waitEpoch => false
  | .locked => true
  | .holdover => true
  | .freeRun => true

/-- One reference period with no command (log entry 1): the stroke count advances towards the period while strokes run, the
holdover time while the device holds over, and the count of reference periods once STKCLK has locked (R401). -/
def tick (s : State) : State :=
  let x := s.stroke
  let run := strokesRun s && !s.shut
  { s with stroke := { x with
      count := if run && decide (x.count + 1 < x.periodAct) then x.count + 1 else x.count,
      holdTicks := if run && x.state == .holdover then x.holdTicks + 1 else x.holdTicks,
      refTicks := if s.clock.lock.testBit 21 then (x.refTicks + 1) % 2 ^ 22 else x.refTicks } }

end Sys2Proof.Machine
end

