-- ==== Sys2Proof/Machine/AdapterPool.lean ====
section
/-! DEFINITION. The adapter pool of a partition as space 4 lays it out (R73, R76). -/

namespace Sys2Proof.Machine

/-- Length of space 4 in bytes: `PART.ADAPT` MiB and 1 MiB of directories (R76). -/
def poolSize (x : Part) : Nat := (x.cfg.adapt + 1) * 2 ^ 20

/-- Fields of an adapter image (R73). -/
def aiNproj (im : List Byte) : Nat := numAt im 0x06 2
def aiEntry (im : List Byte) (n off len : Nat) : Nat := numAt im (0x20 + 32 * n + off) len

/-- The entry of an adapter image for a projection. DESIGN CHOICE (log entry 97): where an image lists one PROJ_ID twice, which the manual
neither forbids nor explains, its first entry for the projection counts. -/
def aiFind (im : List Byte) (id : Nat) : Option Nat := (List.range (aiNproj im)).find? (fun n => aiEntry im n 0 4 == id)

/-- Byte `k` of the projection index of an adapter against a plan's table (R76). The rank and the factor of a projection that
the adapter does not cover have no stated content (log entry 30). -/
def indexByte (p : Nat) (projs : List Proj) (a : Adapter) (base k : Nat) : Byte :=
  match projs[k / 16]? with
  | none => Config.freePoolByte p (base + k)
  | some pr =>
    match aiFind a.image pr.id with
    | none => if k % 16 < 8 then 0xFF#8 else Config.freePoolByte p (base + k)
    | some n =>
      let j := k % 16
      if j < 8 then (leBytes 8 (a.offset + aiEntry a.image n 0x18 8)).getD j 0#8
      else if j < 12 then (leBytes 4 (aiEntry a.image n 0x0C 4)).getD (j - 8) 0#8
      else (leBytes 4 (aiEntry a.image n 0x10 4)).getD (j - 12) 0#8

/-- A slot holds an adapter: one that the directory shows, or one loaded since (R74). -/
def adapterAt (x : Part) (n : Nat) : Option Adapter := match Tbl.get? x.adaptersNew n with
  | some a => some a
  | none => match Tbl.get? x.adapters n with
    | some a => if a.gone then none else some a
    | none => none

/-- The table of projections of the loaded plan. -/
def planProjs (x : Part) : List Proj := match x.plan with
  | some pl => pl.projs
  | none => []

def up64 (n : Nat) : Nat := (n + 63) / 64 * 64
/-- Bytes of a version: four parts, each from a 64-byte boundary (R76). -/
def versionLen (rank nIn nOut : Nat) : Nat :=
  up64 ((rank * nIn + 1) / 2) + up64 (4 * rank) + up64 ((nOut * rank + 1) / 2) + 4 * nOut

def TrimVer.length (v : TrimVer) : Nat := versionLen v.rank v.nIn v.nOut

/-- Byte `k` of int4 values, the lower nibble of each byte first. -/
def nibbleByte (xs : List Int) (k : Nat) : Byte :=
  BitVec.ofNat 8 ((xs.getD (2 * k) 0 % 16).toNat + 16 * (xs.getD (2 * k + 1) 0 % 16).toNat)
def wordByte (xs : List W32) (k : Nat) : Byte := (leBytes 4 (xs.getD (k / 4) 0#32).toNat).getD (k % 4) 0#8

/-- Byte `k` of a version (R76). -/
def TrimVer.byte (v : TrimVer) (k : Nat) : Byte :=
  let p1 := up64 ((v.rank * v.nIn + 1) / 2)
  let p2 := p1 + up64 (4 * v.rank)
  let p3 := p2 + up64 ((v.nOut * v.rank + 1) / 2)
  if k < p1 then nibbleByte v.a k
  else if k < p2 then wordByte v.alpha (k - p1)
  else if k < p3 then nibbleByte v.b (k - p2)
  else wordByte v.beta (k - p3)

/-- Bytes of the masters, and of a capture: its inputs and its targets, 4 bytes an element (log entry 31). -/
def TrimMasters.length (m : TrimMasters) : Nat := 4 * (m.a.length + m.b.length)
def TrimCapt.length (c : TrimCapt) : Nat := 4 * (c.x.length + c.target.length)

/-- A byte of the areas from 0x10_0000 on: adapter images, projection indices, trim versions; any other area has no content of
R76 (log entry 30). -/
def poolData (x : Part) (p off : Nat) : Byte :=
  let projs := planProjs x
  match (x.adapters ++ x.adaptersNew).find? (fun (_, a) => decide (a.offset ≤ off) && decide (off < a.offset + a.image.length)) with
  | some (_, a) => a.image.getD (off - a.offset) 0#8
  | none =>
    match (x.adapters ++ x.adaptersNew).find? (fun (_, a) => match a.index with
        | some b => decide (b ≤ off) && decide (off < b + 16 * projs.length)
        | none => false) with
    | some (_, a) => indexByte p projs a (a.index.getD 0) (off - a.index.getD 0)
    | none =>
      match x.trims.find? (fun (_, t) =>
          t.version.rank != 0 && decide (t.offset ≤ off) && decide (off < t.offset + t.version.length)) with
      | some (_, t) => t.version.byte (off - t.offset)
      | none => Config.freePoolByte p off

/-- A byte of space 4 (R76): slot directory, trim directory, zeros, then the data areas. -/
def poolByte (x : Part) (p off : Nat) : Byte :=
  if off < 0x2000 then
    match Tbl.get? x.adapters (off / 8) with
    | some a =>
      (match a.index with
        | some b => (leBytes 8 b).getD (off % 8) 0#8
        | none => 0xFF#8)
    | none => 0xFF#8
  else if off < 0x42000 then
    match Tbl.get? x.trims ((off - 0x2000) / 64) with
    | some t =>
      let j := off % 64
      if j < 8 then (if t.version.rank = 0 then 0#8 else (leBytes 8 t.offset).getD j 0#8)
      else if j < 12 then (leBytes 4 t.version.rank).getD (j - 8) 0#8
      else if j < 16 then (leBytes 4 t.number).getD (j - 12) 0#8
      else 0#8
    | none => 0#8
  else if off < 0x100000 then 0#8
  else poolData x p off

/-- What a trim adapter takes of the pool: its versions, masters and captures (R67, R71). -/
def trimUse (t : Trim) : List (Nat × Nat) :=
  (if t.version.rank = 0 then [] else [(t.offset, t.version.length)])
  ++ (match t.pending with
    | some (o, v) => [(o, v.length)]
    | none => [])
  ++ (match t.masters with
    | some m => [(m.offset, m.length)]
    | none => [])
  ++ t.captures.map (fun c => (c.offset, c.length))

/-- What stands in the pool: beginnings and lengths of images, indices, versions, masters and captures. -/
def poolUse (x : Part) : List (Nat × Nat) :=
  let n := 16 * (planProjs x).length
  (x.adapters ++ x.adaptersNew).flatMap (fun (_, a) => (a.offset, a.image.length) :: (match a.index with
    | some b => [(b, n)]
    | none => []))
  ++ x.trims.flatMap (fun (_, t) => trimUse t)

/-- Places of 64-byte alignment where `n` bytes fit beside what stands in the pool (R73, R76). -/
def poolFits (x : Part) (n at_ : Nat) : Bool :=
  decide (0x100000 ≤ at_) && decide (at_ + n ≤ poolSize x)
  && (poolUse x).all (fun (b, m) => decide (at_ + n ≤ b) || decide (b + m ≤ at_))

/-- Ends of what stands in the pool: the first place after each of them, and the pool's own first place. -/
def poolStarts (x : Part) : List Nat :=
  0x100000 :: (poolUse x).map (fun (b, m) => (b + m + 63) / 64 * 64)

/-- Where the device places `n` bytes: any place that fits, at its own choice (log entry 32); none where nothing fits. A gap
that holds the bytes holds them at its start. -/
def poolPlace (s : State) (x : Part) (n : Nat) : Option (Nat × State) :=
  match (poolStarts x).filter (poolFits x n) with
  | [] => none
  | a :: as =>
    let own := 64 * s.freeNat (poolSize x)
    if poolFits x n own then some (own, s.nextFree)
    else some ((a :: as).getD (s.freeNat (as.length + 1)) a, s.nextFree)

/-- Free KiB of the pool (`ADAPT.POOL_FREE`, R75). -/
def poolFree (x : Part) : Nat := (x.cfg.adapt * 2 ^ 20 - ((poolUse x).map (·.2)).sum) / 1024

end Sys2Proof.Machine
end

