-- ==== Sys2Proof/Machine/Engine.lean ====
section
/-! DEFINITION. The digital engine's functions on register contents: matrix tiles (R192), the vector unit (R194 to R197),
selection and sampling (R198 to R200), the step digest (R207). -/

namespace Sys2Proof.Machine

/-! ### Matrix tiles (R192). Row `r` of a tile is a 2,048-bit register; element c is lane c (R193). -/

/-- Row `r` of MMA8: int8 elements, k from 0 to 3, wrapping int32 sums. -/
def mma8Row (a b acc : W2048) (r : Nat) : W2048 :=
  ofLanes ((List.range 64).map (fun c =>
    w32 ((elem 32 acc c).toInt
      + ((List.range 4).map (fun k => (elem 8 a (4 * r + k)).toInt * (elem 8 b (64 * k + c)).toInt)).sum)))

/-- Row `r` of MMA4: int4 elements, k from 0 to 7. -/
def mma4Row (a b acc : W2048) (r : Nat) : W2048 :=
  ofLanes ((List.range 64).map (fun c =>
    w32 ((elem 32 acc c).toInt
      + ((List.range 8).map (fun k => (elem 4 a (8 * r + k)).toInt * (elem 4 b (64 * k + c)).toInt)).sum)))

/-- Row `r` of MMAH: bf16 elements, k = 0 then k = 1, one rounding for each exact product and addition. -/
def mmahRow (a b acc : W2048) (r : Nat) : W2048 :=
  ofLanes ((List.range 64).map (fun c =>
    (List.range 2).foldl (fun s k =>
      fFma (bf16To32 (elem 16 a (2 * r + k))) (bf16To32 (elem 16 b (64 * k + c))) s) (elem 32 acc c)))

/-! ### Vector unit -/

def ones32 (b : Bool) : W32 := if b then 0xFFFFFFFF#32 else 0#32

/-- VALU operations 0 to 20, lane by lane (R195). -/
def valuLane (op : Nat) (x y : W32) : W32 :=
  let sh := y.toNat % 32
  match op with
  | 0 => fAdd x y
  | 1 => fSub x y
  | 2 => fMul x y
  | 3 => fMax x y
  | 4 => fMin x y
  | 5 => fAbs x
  | 6 => fNeg x
  | 7 => ones32 (fGt x y)
  | 8 => ones32 (fEq x y)
  | 9 => x + y
  | 10 => x - y
  | 11 => x * y
  | 12 => if x.toInt ≤ y.toInt then y else x
  | 13 => if x.toInt ≤ y.toInt then x else y
  | 14 => x &&& y
  | 15 => x ||| y
  | 16 => x ^^^ y
  | 17 => x <<< sh
  | 18 => x >>> sh
  | 19 => x.sshiftRight sh
  | _ => x

/-- Every lane equal to `x` (BCAST, GBC and VRED results). -/
def splat (x : W32) : W2048 := ofLanes (List.replicate 64 x)

/-- One level of the FSUM tree of R196: neighbours added in pairs. -/
def pairSum : List W32 → List W32
  | a :: b :: rest => fAdd a b :: pairSum rest
  | xs => xs

def fsum (v : W2048) : W32 := ((List.range 6).foldl (fun xs _ => pairSum xs) (lanes v)).headD 0#32

def foldLanes (f : W32 → W32 → W32) (v : W2048) : W32 :=
  match lanes v with
  | [] => 0#32
  | x :: xs => xs.foldl f x

/-- VRED operations 0 to 3 (R196). A NaN anywhere makes FMAX and FMIN a NaN, as VALU 3 and 4 do. -/
def vred (op : Nat) (v : W2048) : W2048 :=
  match op with
  | 0 => splat (fsum v)
  | 1 => splat (foldLanes fMax v)
  | 2 => splat (foldLanes fMin v)
  | _ => splat (foldLanes (· + ·) v)

def vexp (baseE : Bool) (v : W2048) : W2048 := mapLanes (if baseE then fExpE else fExp2) v
def vrsq (v : W2048) : W2048 := mapLanes fRsqrt v

/-! ### Selection and sampling -/

/-- An entry of the running list: value and index (R198). -/
abbrev Entry := W32 × W32
def emptyEntry : Entry := (0xFF800000#32, 0xFFFFFFFF#32)
def Entry.isEmpty (e : Entry) : Bool := e.2 == 0xFFFFFFFF#32

def entriesOf (vals idx : W2048) : List Entry := (lanes vals).zip (lanes idx)

/-- Order of R198: greater value first, -0 equal to +0, equal values by lower index. -/
def entryBefore (x y : Entry) : Bool := fGt x.1 y.1 || (fEq x.1 y.1 && decide (x.2.toNat < y.2.toNat))

/-- Entries that R198 does not order (equal values, one index) keep the order of `cand` (log entry 90). -/
def insertEntry (x : Entry) : List Entry → List Entry
  | [] => [x]
  | y :: ys => if entryBefore y x then y :: insertEntry x ys else x :: y :: ys

def sortEntries (xs : List Entry) : List Entry := xs.foldr insertEntry []

/-- TOPK (R198): the new pair of list registers. `mask` is mask word w of the mask register. -/
def topk (k : Nat) (resetList : Bool) (list cands : List Entry) (mask : Nat → Bool) : W2048 × W2048 :=
  let start := if resetList then [] else (list.take k).filter (fun e => !e.isEmpty && !fIsNan e.1)
  let cand := cands.zipIdx.foldl (fun acc (e, l) =>
    if mask l && !e.isEmpty && !fIsNan e.1 && !acc.any (fun a => a.2 == e.2) then acc ++ [e] else acc) start
  let out := (sortEntries cand).take k
  let full := out ++ List.replicate (64 - out.length) emptyEntry
  (ofLanes (full.map (·.1)), ofLanes (full.map (·.2)))

/-- The draw of R199: 24 bits of the mixed seed, u = this number * 2^-24. -/
def sampDraw (seed : W64) (position : W32) : Nat :=
  let z0 := seed ^^^ (position.zeroExtend 64 * 0x9E3779B97F4A7C15#64)
  let z1 := (z0 ^^^ (z0 >>> 30)) * 0xBF58476D1CE4E5B9#64
  let z2 := (z1 ^^^ (z1 >>> 27)) * 0x94D049BB133111EB#64
  let z3 := z2 ^^^ (z2 >>> 31)
  (z3 >>> 40).toNat

def sampU (seed : W64) (position : W32) : W32 := rne32 false (sampDraw seed position) (-24)

/-- Weights and running sums of R200. -/
def sampWeights (list : List Entry) (beta : W32) : List W32 :=
  match list with
  | [] => []
  | e0 :: _ => list.map (fun e => fExp2 (fMul (fSub e.1 e0.1) beta))
def sampSums : W32 → List W32 → List W32
  | _, [] => []
  | c, w :: ws => let c' := fAdd c w; c' :: sampSums c' ws
def runningSums : List W32 → List W32
  | [] => []
  | w :: ws => w :: sampSums w ws

/-- SAMP (R200): none for the ENCODING fault, otherwise g[dest]. The list is its first k entries. -/
def samp (greedy : Bool) (list : List Entry) (seed : W64) (position beta pi : W32) : Option W64 :=
  let ne := list.filter (fun e => !e.isEmpty)
  match ne with
  | [] => some 0x00000000FFFFFFFF#64
  | e0 :: _ =>
    if greedy || fIsInf e0.1 then some (0x3F800000#32 ++ e0.2)
    else if fIsNan beta || fIsInf beta || fLt beta 0#32 || !(fGt pi 0#32) || fGt pi 0x3F800000#32 || fIsNan pi then none
    else
      let ws := sampWeights ne beta
      let cs := runningSums ws
      let lim := fMul pi (cs.getLastD 0#32)
      let m := match cs.findIdx? (fun c => fGe c lim) with
        | some j => j + 1
        | none => ne.length
      let cm := cs.getD (m - 1) 0#32
      let tgt := fMul (sampU seed position) cm
      let i := match (cs.take m).findIdx? (fun c => fGt c tgt) with
        | some j => j
        | none => m - 1
      some (fDiv (ws.getD i 0#32) cm ++ (ne.getD i emptyEntry).2)

/-! ### Checksums -/

/-- One bit of a CRC that shifts left: `inp` is the message bit. -/
def crcBit (w : Nat) (poly crc : BitVec w) (inp : Bool) : BitVec w :=
  if crc.getLsbD (w - 1) != inp then (crc <<< 1) ^^^ poly else crc <<< 1

/-- One byte, bit 7 first. -/
def crcByte (w : Nat) (poly crc : BitVec w) (b : Byte) : BitVec w :=
  (List.range 8).foldl (fun c i => crcBit w poly c (b.getLsbD (7 - i))) crc

def crcBytes (w : Nat) (poly init : BitVec w) (bs : List Byte) : BitVec w := bs.foldl (crcByte w poly) init

/-- DGST (R207): the digest folded over the 256 bytes of a vector register, byte 0 first. -/
def dgst (d : W64) (v : W2048) : W64 := crcBytes 64 0x42F0E1EBA9EA3693#64 d ((List.range 256).map (elem 8 v))

/-- CRC-16 of R104: polynomial 0x1021, initial value 0xFFFF. -/
def crc16 (bs : List Byte) : BitVec 16 := crcBytes 16 0x1021#16 0xFFFF#16 bs

/-- One bit of the reflected CRC-32C. -/
def crc32cBit (c : W32) : W32 := if c.getLsbD 0 then (c >>> 1) ^^^ 0x82F63B78#32 else c >>> 1
def crc32cByte (c : W32) (b : Byte) : W32 :=
  (List.range 8).foldl (fun c _ => crc32cBit c) (c ^^^ b.zeroExtend 32)
/-- CRC-32C, the check word of adapter images, master images, trim records and packets (R43, R73). -/
def crc32c (bs : List Byte) : W32 := (bs.foldl crc32cByte 0xFFFFFFFF#32) ^^^ 0xFFFFFFFF#32

end Sys2Proof.Machine
end

