-- ==== Sys2Proof/Machine/Adapters.lean ====
section
/-! DEFINITION. Tenant adapters: their images, loads and unloads (R73 to R76). -/

namespace Sys2Proof.Machine

/-! ### Images (R73) -/

def aiLength (b : List Byte) : Nat := numAt b 0x10 4
def aiRank (b : List Byte) : Nat := numAt b 0x04 2

/-- CRC-32C of the whole image with its CRC field taken as 0. -/
def aiCrcOk (b : List Byte) : Bool :=
  (crc32c (bytesAt b 0 0x14 ++ List.replicate 4 0#8 ++ bytesAt b 0x18 (b.length - 0x18))).toNat == numAt b 0x14 4

/-- An fp32 word is finite. -/
def finite32 (w : Nat) : Bool := w / 2 ^ 23 % 256 != 255

/-- Entry `n`: widths, rank, factor, and its data within the image: A and B row-major, 2 bytes an element. -/
def aiEntryOk (b : List Byte) (n : Nat) : Bool :=
  let r := aiEntry b n 0x0C 4
  let off := aiEntry b n 0x18 8
  decide (1 ≤ r) && decide (r ≤ aiRank b) && finite32 (aiEntry b n 0x10 4) && aiEntry b n 0x14 4 == 0 && off % 64 == 0
  && decide (off + 2 * r * (aiEntry b n 4 4 + aiEntry b n 8 4) ≤ aiLength b)

/-- FORMAT, ranges, entries within LENGTH (R74). DESIGN CHOICE (log entry 97): R73 also fixes the reserved bytes, the alignment of OFFSET,
NPROJ and LENGTH, and R74 names no code for a breach of these; the answer is BAD_FORMAT too. -/
def aiForm (b : List Byte) : Bool :=
  decide (0x20 ≤ b.length) && aiLength b == b.length && numAt b 0 4 == 1
  && decide (1 ≤ aiRank b) && decide (aiRank b ≤ 64) && decide (1 ≤ aiNproj b) && decide (aiNproj b ≤ 4096)
  && zeroAt b 0x18 8 && decide (0x20 + 32 * aiNproj b ≤ b.length) && (List.range (aiNproj b)).all (aiEntryOk b)

/-- The entries against a projection table: every PROJ_ID listed where `known`, every listed one with the table's widths. -/
def aiProjs (b : List Byte) (projs : List Proj) (known : Bool) : Bool :=
  (List.range (aiNproj b)).all (fun n =>
    match projs.find? (fun pr => pr.id == aiEntry b n 0 4) with
    | none => !known
    | some pr => pr.nIn == aiEntry b n 4 4 && pr.nOut == aiEntry b n 8 4)

/-! ### Orders (R74, R75) -/

/-- GO of `ADAPT.LOAD_CMD` with an operation: ignored while BUSY. -/
def adaptOrder (src p op : Nat) (d : W32) (s : State) : State :=
  let word := (d &&& ~~~(0xC00#32)) ||| BitVec.ofNat 32 (op * 1024)
  orderWrite s src (pgAdapt p) 0x048 word (fun t =>
    let x := t.part p
    if x.adBusy.isSome then t
    else t.setPart p { x with adBusy := some (op, (d.extractLsb' 0 10).toNat, t.pair (pgAdapt p) 0x040 0x044) })

def execAdapterLoad (src part : Nat) (data : W32) (s : State) : Host.Outcome State Fault Refusal :=
  .next (adaptOrder src part 1 data s)
def execAdapterUnload (src part : Nat) (data : W32) (s : State) : Host.Outcome State Fault Refusal :=
  .next (adaptOrder src part 2 data s)

/-- A request slot references an adapter slot (R74). -/
def adapterUsed (s : State) (p n : Nat) : Bool :=
  s.slots.any (fun (_, y) => y.part == p && y.state != .free && y.desc.kind == 1 && y.desc.flags.testBit 1 && y.desc.adapter == n)

/-- Places the projection index of an adapter for the loaded plan; none where it does not fit (R76). -/
def placeIndex (s : State) (p : Nat) (a : Adapter) : Option (Adapter × State) :=
  let projs := planProjs (s.part p)
  match (s.part p).plan with
  | none => some ({ a with index := none }, s)
  | some _ =>
    match poolPlace s (s.part p) (16 * projs.length) with
    | none => none
    | some (off, t) => some ({ a with index := some off }, t)

/-- A load that passes its checks: the image, then its index, placed in the pool. -/
def placeAdapter (s : State) (p n : Nat) (b : List Byte) : Nat × State :=
  match poolPlace s (s.part p) b.length with
  | none => (4, s)
  | some (off, s1) =>
    let a : Adapter := { image := b, edition := numAt b 8 8, visible := false, offset := off, index := none,
                         gone := false }
    let s2 := s1.updPart p (fun x => { x with adaptersNew := Tbl.set x.adaptersNew n a })
    match placeIndex s2 p a with
    | none => (4, s)
    | some (a1, s3) => (0, s3.updPart p (fun x => { x with adaptersNew := Tbl.set x.adaptersNew n a1 }))

/-- The end of a load (R74): result code and state. -/
def judgeAdapter (s : State) (p n : Nat) (image : Option (List Byte)) : Nat × State :=
  let x := s.part p
  match image with
  | none => if (adapterAt x n).isSome then (5, s) else (6, s)
  | some b =>
    if (adapterAt x n).isSome then (5, s)
    else if !aiCrcOk b then (1, s)
    else if !aiForm b || (x.plan.isSome && !aiProjs b (planProjs x) true) then (2, s)
    else if numAt b 8 8 ≠ x.edition then (3, s)
    else placeAdapter s p n b

/-- The end of an unload (R74): the slot is empty; its directory word stays until the next boundary (R76). DESIGN CHOICE (log entry 97):
the unload of a slot that holds nothing, for which R74 names no code, answers OK. -/
def judgeUnload (s : State) (p n : Nat) : Nat × State :=
  if adapterUsed s p n then (5, s)
  else (0, s.updPart p (fun x => { x with
    adapters := Tbl.update x.adapters n (fun a => { a with gone := true }), adaptersNew := Tbl.erase x.adaptersNew n }))

/-- ADAPTER_LOAD_DONE (R74, R75): the operation in progress ends and LOAD_DONE is raised. -/
def execAdapterLoadDone (part : Nat) (image : Option (List Byte)) (s : State) : Host.Outcome State Fault Refusal :=
  match (s.part part).adBusy with
  | none => .next s
  | some (op, n, _) =>
    let r := if op = 1 then judgeAdapter s part n image else judgeUnload s part n
    .next (raise (r.2.updPart part (fun x => { x with adBusy := none, adResult := r.1, adLast := n })) (pgAdapt part) 0)

/-! ### Boundaries and plan loads (R76) -/

/-- At a boundary: adapters loaded before it can be named by requests (R74). Where no step runs on over it, the words of unloaded slots
are cleared and those of loaded slots set: a step reads one state of the directories throughout (R76). -/
def settleAdapters (s : State) (p : Nat) (runsOn : Bool) : State :=
  s.updPart p (fun x =>
    let new := Tbl.mapVal (fun _ (a : Adapter) => { a with visible := true }) x.adaptersNew
    if runsOn then { x with adaptersNew := new }
    else { x with
      adapters := new.foldl (fun t na => Tbl.set t na.1 na.2) (x.adapters.filter (fun (_, a) => !a.gone))
      adaptersNew := [] })

/-- At a plan load: an adapter with an entry of other widths than the table's is unloaded, the index of every other is built anew; one
whose index finds no place is unloaded too (log entry 34). -/
def rebindAdapter (p : Nat) (s : State) (na : Nat × Adapter) : State :=
  let drop := s.updPart p (fun x => { x with adapters := Tbl.erase x.adapters na.1 })
  if na.2.gone || !aiProjs na.2.image (planProjs (s.part p)) false then drop
  else
    match placeIndex s p { na.2 with index := none } with
    | none => drop
    | some (a, t) => t.updPart p (fun x => { x with adapters := Tbl.set x.adapters na.1 a })

/-- As `rebindAdapter`, for an adapter that the directory does not show yet. -/
def rebindNew (p : Nat) (s : State) (na : Nat × Adapter) : State :=
  let drop := s.updPart p (fun x => { x with adaptersNew := Tbl.erase x.adaptersNew na.1 })
  if !aiProjs na.2.image (planProjs (s.part p)) false then drop
  else
    match placeIndex s p { na.2 with index := none } with
    | none => drop
    | some (a, t) => t.updPart p (fun x => { x with adaptersNew := Tbl.set x.adaptersNew na.1 a })

def rebindAdapters (s : State) (p : Nat) : State :=
  let s1 := (s.part p).adapters.foldl (rebindAdapter p) s
  (s1.part p).adaptersNew.foldl (rebindNew p) s1

end Sys2Proof.Machine
end

