-- ==== Sys2Proof/Machine/Spares.lean ====
section
/-! DEFINITION. Core states, the spare pool and the remap table (R115 to R117, R352). -/

namespace Sys2Proof.Machine

def allPcores : List Nat := List.range numPcores
/-- Physical cores in a state. -/
def coresIn (s : State) (k : CoreKind) : List Nat := allPcores.filter (fun c => (s.pcore c).kind == k)
/-- Cores that are not BAD. -/
def goodCores (s : State) : Nat := (allPcores.filter (fun c => (s.pcore c).kind != .bad)).length

/-- The spare for physical core `f`: least Manhattan distance, then lowest number (R117). -/
def chooseSpareFrom (cands : List Nat) (f : Nat) : Option Nat :=
  match cands with
  | [] => none
  | c :: rest => some (rest.foldl (fun b x => if coreDist x f < coreDist b f then x else b) c)
/-- A SPARE core that serves as a prover or substitute does not count as free (R255); one that holds a shadow is taken only
when no other remains (R287). -/
def holdsShadow (s : State) (c : Nat) : Bool :=
  s.weight.shadows.any (fun x => x.1 / 32 == c) || s.weight.queue.any (fun q => q.why == .shadow && q.pcore == c)
def chooseSpare (s : State) (f : Nat) : Option Nat :=
  let free := (coresIn s .spare).filter (fun c => !s.integ.provers.any (fun x => x.1 == c))
  match chooseSpareFrom (free.filter (fun c => !holdsShadow s c)) f with
  | some c => some c
  | none => chooseSpareFrom free f

/-- The mark of a SPARE core that serves the held step of a partition, among `Integ.provers`. -/
def holdKey (p : Nat) : Nat := 2 ^ 20 + p

/-- The provers of a partition's held step are free again. -/
def releaseProver (s : State) (p : Nat) : State :=
  { s with integ := { s.integ with provers := s.integ.provers.filter (fun x => x.2 != holdKey p) } }

def setKind (s : State) (c : Nat) (k : CoreKind) : State := s.setPcore c { s.pcore c with kind := k }

/-- Gives a physical core a logical number: the core becomes ACTIVE and the remap entry names it, in mode ARRAYS. -/
def giveNumber (s : State) (c l : Nat) : State :=
  let s1 := s.setPcore c { s.pcore c with kind := .active, lcore := l, part := (s.remapOf l).part }
  s1.setRemap l { s1.remapOf l with pcore := c, mode := .arrays, host := c, next := none }

/-- A core passes its number to a spare in bring-up: the number's tiles are those of the core that held it before bring-up replaced any
(R352, R358). -/
def noteSubst (s : State) (sp c : Nat) : State :=
  { s with bring := { s.bring with
      subst := Tbl.set (Tbl.erase s.bring.subst c) sp (Tbl.getD s.bring.subst c c) } }

/-- An ACTIVE core that bring-up finds bad, or fences, passes its logical number to the spare chosen by R117; without a
spare the number stays without a core (mode unused). -/
def passNumber (s : State) (c : Nat) (k : CoreKind) : State :=
  let x := s.pcore c
  let s1 := setKind s c k
  if x.kind = .active then
    match chooseSpare s1 c with
    | some sp => noteSubst (giveNumber s1 sp x.lcore) sp c
    | none => s1.setRemap x.lcore { s1.remapOf x.lcore with mode := .unused }
  else s1

/-- The logical number that the on-die remap record gives a physical core (R352). A part without a record of its own
numbers its cores from 0 (log entry 14). -/
def recordedNumber (s : State) (c : Nat) : Option Nat :=
  if s.remapRec.isEmpty then (if c < numLcores then some c else none) else Tbl.get? s.remapRec c

/-- Rewrites the remap record from the core states (R352). -/
def writeRecord (s : State) : State :=
  { s with remapRec := (allPcores.filter (fun c => (s.pcore c).kind == .active)).map (fun c => (c, (s.pcore c).lcore)) }

/-- A programming of array `k` with a tile of a partition, to be queued (R279, R280). -/
def newProg (k : Nat) (why : ProgWhy) (part tile : Nat) (fromNext : Bool) : Prog :=
  { pcore := k / 32, array := k % 32, why := why, part := part, tile := tile, fromNext := fromNext, tries := 0,
    repair := false, started := false, shadowOf := none, out := false, dueNo := 0 }

/-- Queues a programming. -/
def queueProg (s : State) (q : Prog) : State := { s with weight := { s.weight with queue := s.weight.queue ++ [q] } }

end Sys2Proof.Machine
end

