-- ==== Sys2Proof/Machine/Residency.lean ====
section
/-! DEFINITION. Images, residency records and who serves an array (R116, R156, R275, R278, R286). -/

namespace Sys2Proof.Machine

/-- Byte `k` of the codes of tile `t` of an image (R209, R275). -/
def Image.code (im : Image) (t k : Nat) : Byte := Mem.read im.bytes (im.codeOff + 131072 * t + k)

/-- The tile that an image's directory places on an array (R275). -/
def Image.tileAt (im : Image) (pci arr : Nat) : Option Nat := im.dir.findIdx? (fun d => d == (pci, arr))

/-- The rank of a logical core among those of its partition (R275): they are consecutive (R332). -/
def coreIndex (s : State) (p l : Nat) : Nat := l - (s.part p).cfg.lbase

/-- Whether trims of an array are loaded and valid (R43). -/
def trimOk (s : State) (k : Nat) : Bool := s.bring.trimsLoaded && !(s.array k).trimBad

/-- The tile that an image places on array `k` under the mapping in force (R278). -/
def placedTile (s : State) (im : Image) (k : Nat) : Option Nat :=
  let x := s.pcore (k / 32)
  if x.kind = .active ∨ x.kind = .taking then im.tileAt (coreIndex s x.part x.lcore) (k % 32) else none

/-- An array may serve its partition (R257, R278, R283): RESIDENT, the served edition, the tile its place calls for, valid
trims, no permanent fault, verified since the last device reset, and no rewrite pending that took it out of service. -/
def eligible (s : State) (k : Nat) : Bool :=
  let a := s.array k
  let p := (s.pcore (k / 32)).part
  let x := s.part p
  a.resState == .resident && a.recOk && x.edition != 0 && a.edition == x.edition && a.resPart == p
  && a.verified && trimOk s k && !a.broken
  && !s.weight.queue.any (fun q => 32 * q.pcore + q.array == k && (q.why == .verify || q.out))
  && (match x.curImage with
      | some im => placedTile s im k == some a.tile
      | none => false)

/-- Array `k` takes or leaves array service (R278, R279). -/
def refreshService (s : State) (k : Nat) : State := s.setArray k { s.array k with fenced := !eligible s k }

/-- Who serves an array instruction (R156, R286). -/
inductive Service where
  | array | prover | engine
  deriving DecidableEq, Repr

/-- The service of array `n` of a logical core. -/
def serviceOf (s : State) (l n : Nat) : Service :=
  let r := s.remapOf l
  if arraysAct s l then
    let a := s.array (32 * r.pcore + n)
    if !a.fenced then .array else if a.shadowed then .prover else .engine
  else .engine

/-- The master-image tile of array `n` of a core's plan index (R129). -/
def boundTile (s : State) (l n : Nat) : Option Nat :=
  let sc := s.scribe l
  match (s.part sc.part).plan with
  | none => none
  | some pl =>
    match pl.cores[sc.pindex]? with
    | none => none
    | some c => match c.tiles[n]? with
      | none => none
      | some t => if t = 0xFFFFFFFF then none else some t

/-- Codes of a tile of the served edition (R156); an array that the entry leaves unused holds none. -/
def fairCode (s : State) (p : Nat) (t : Option Nat) (k : Nat) : Byte :=
  match (s.part p).curImage, t with
  | some im, some t => im.code t k
  | _, _ => 0#8

/-- A tile of CURRENT that cannot be read (R277). -/
def tileLost (s : State) (p : Nat) (t : Option Nat) : Bool :=
  match (s.part p).curImage, t with
  | some im, some t => im.lost.contains t
  | _, _ => false

/-- A tile of CURRENT that cannot be read any more: LOST is set and IMAGE_LOST raised (R277). -/
def loseTile (s : State) (p t : Nat) : State :=
  match (s.part p).curImage with
  | none => s
  | some im =>
    if im.lost.contains t then s
    else raise (s.updPart p (fun x => { x with curImage := some { im with lost := im.lost ++ [t] } })) pgWeight 6

/-- The least number of the register unit at or above n / d, or the greatest at or below it: the manual states no rounding, so
an inexact value goes either way (log entry 5). -/
def roundFree (s : State) (n : Int) (d : Nat) : Int × State :=
  let q := n / (d : Int)
  if n % (d : Int) = 0 then (q, s) else ((if Config.freeRoundUp s.freeCtr then q + 1 else q), s.nextFree)

/-- Ten thousand times the mean temperature coefficient: 12 on B1, 11 on C0, negative (R47, R49). -/
def alpha (s : State) : Int := if s.sec.ttid = 0x00B1 then -12 else -11

end Sys2Proof.Machine
end

