-- ==== Sys2Proof/Machine/Suspect.lean ====
section
/-! DEFINITION. Failing checks and program faults: what they mark suspect, what they count, and what a replay makes of them
(R146, R247, R249, R254, R255, R273, R274). -/

namespace Sys2Proof.Machine

/-- A job whose block spans several devices. -/
def multiDevice (j : Job) : Bool := decide (1 < j.block.length)

/-- The physical core that runs a logical core's plan (R116). -/
def runCore (s : State) (l : Nat) : Nat :=
  let r := s.remapOf l
  if r.mode = .hosted then r.host else r.pcore

/-- The core that executes a logical core's instructions: during a substitution of R267 the substitute. -/
def roleCore (s : State) (l : Nat) : Nat :=
  let c := runCore s l
  match s.integ.proof with
  | some r => if r.pcore = c then r.subst.getD c else c
  | none => c

/-- The array `n` of a logical core: that of the physical core that holds the number (R116). -/
def arrayKey (s : State) (l n : Nat) : Nat := 32 * (s.remapOf l).pcore + n

def FaultUnit.pcore : FaultUnit → Nat
  | .array c _ => c
  | .core c => c
  | .ligature c _ _ => c
  | .router c => c
  | .fence c => c
  | .hbmScratch _ _ => 0
  | .hbmPage _ _ => 0
  | .hbmState _ _ => 0
  | .hbmImage _ => 0
  | .peer => 0

def FaultUnit.arrayNo : FaultUnit → Nat
  | .array _ n => n
  | _ => 0

/-- The unit of an HBM location, in the stack that reported the error. -/
def FaultUnit.atStack (u : FaultUnit) (k : Nat) : FaultUnit :=
  match u with
  | .hbmScratch pg _ => .hbmScratch pg k
  | .hbmPage pg _ => .hbmPage pg k
  | .hbmState n _ => .hbmState n k
  | .hbmImage _ => .hbmImage k
  | v => v

/-- `INTEG.LAST_SUSP` (R274). -/
def suspWord (u : FaultUnit) (check p result : Nat) : W32 :=
  BitVec.ofNat 32 (u.pcore + 2 ^ 11 * u.arrayNo + 2 ^ 16 * check + 2 ^ 20 * p + 2 ^ 25 * result)

/-- RESULT of `INTEG.LAST_SUSP`: 1 transient, 2 permanent, 3 program fault, 4 frozen. -/
def setSuspResult (s : State) (result : Nat) : State :=
  { s with integ := { s.integ with
      lastSusp := (s.integ.lastSusp &&& ~~~(0x0E000000#32)) ||| BitVec.ofNat 32 (2 ^ 25 * result) } }

/-- A step becomes suspect: counted once, reported, SUSPECT raised (R247, R273, R274, R346). -/
def noteSuspect (s : State) (p : Nat) (u : Suspect) : State :=
  let g := s.integ
  raiseAll { s with integ := { g with
      suspects := sat 16 (g.suspects + 1), lastSusp := suspWord u.unit u.check p 0,
      lastCause := if u.check = 13 then u.cause else g.lastCause } } [(pgInteg, 1), (pgFunc p, 1)]

def FaultUnit.isLigature : FaultUnit → Bool
  | .ligature _ _ _ => true
  | _ => false

/-- A check fails in a replay (R147, R255, R260). In relay mode the failure of a ligature is the other-hardware computation's, and at the
instruction that failed on the same hardware too it is a program fault. Otherwise the failure of an implicated unit classifies it. That
of another unit leaves Q alone: the unit waits for a later replay (log entry 101). -/
def Hold.fails (h : Hold) (u : Suspect) (role : Nat) : Hold :=
  if h.kind = .ligatureRelay ∧ u.unit.isLigature then
    { h with
      otherFail := true
      faultAgain := if h.sameFails.contains u.unit then
          some { role := role, index := u.index, code := 8, pindex := u.pindex, addr := 0#64 }
        else h.faultAgain }
  else if h.units.contains u.unit then
    if h.sameFails.contains u.unit then h else { h with sameFails := h.sameFails ++ [u.unit] }
  else if h.later.any (fun x => x.unit == u.unit) then h
  else { h with later := h.later ++ [u] }

/-- An inline check of a step of partition `p` fails (R247). In a replay it says something of its unit alone. -/
def failCheck (s : State) (p : Nat) (u : Suspect) : State :=
  match s.job p with
  | none => s
  | some j =>
    match j.replaying, j.hold with
    | true, some h =>
      s.setJob p { j with hold := some (h.fails u (match (s.part p).plan.bind (fun pl => pl.cores[u.pindex]?) with
        | some c => c.role
        | none => 0)) }
    | _, _ =>
      if j.suspects.contains u then s
      else
        let s1 := s.setJob p { j with suspects := j.suspects ++ [u] }
        if j.suspects.isEmpty && j.fault.isNone then noteSuspect s1 p u else s1

/-- The other-hardware computation of a replay fails a check (R260). -/
def failOther (s : State) (p : Nat) : State :=
  s.updJob p (fun j => match j.hold with
    | some h => if j.replaying then { j with hold := some { h with otherFail := true } } else j
    | none => j)

/-- Cores of a job that take part in a BAR (R186): below NCORE and not halted. One that never reaches it keeps the others waiting. -/
def barCores (s : State) (j : Plan) : List Nat := (j.lcores.take j.ncore).filter (fun l => (s.scribe l).mode != .halted)

/-- Releases a BAR when every participant has issued it and none has a transaction outstanding (R186). -/
def tryBar (s : State) (p : Nat) : State :=
  match (s.part p).plan with
  | none => s
  | some pl =>
    let cs := barCores s pl
    if !cs.isEmpty && cs.all (fun l => (s.scribe l).atBar && (s.scribe l).txs.isEmpty) then
      let s1 := cs.foldl (fun t l => t.setScribe l { t.scribe l with atBar := false }) s
      s1.updJob p (fun j => { j with barEpoch := j.barEpoch + 1 })
    else s

/-- A program fault of logical core `l` (R146): the scribe stops and the step is suspect for the whole job. In the replay of a
program fault, a fault at the same role, index and code confirms it. -/
def progFault (s : State) (l code : Nat) (addr : W64) (index : Nat) : State :=
  let sc := s.scribe l
  let p := sc.part
  let f : ProgFault := { role := sc.role, index := index, code := code, pindex := sc.pindex, addr := addr }
  let s1 := s.setScribe l { sc with mode := .faulted, atBar := false }
  match s1.job p with
  | none => s1
  | some j =>
    let same := match j.hold with
      | some h => (match h.fault with
          | some g => j.replaying && g.role == f.role && g.index == f.index && g.code == f.code
          | none => false)
      | none => false
    let s2 :=
      if same then
        s1.setJob p { j with hold := j.hold.map (fun h => { h with faultAgain := some f }) }
      else if j.fault.isSome then s1
      else
        let s2 := s1.setJob p { j with fault := some f }
        if j.suspects.isEmpty && !j.replaying then
          noteSuspect s2 p { check := 0, unit := .core (roleCore s l), reqs := .all, pindex := sc.pindex, index := index,
                             cause := 0 }
        else s2
    tryBar s2 p

/-- A suspect set that names one request or handle, or all (R249). -/
def mkSuspect (s : State) (l check : Nat) (u : FaultUnit) (reqs : SuspectSet) (index cause : Nat) : Suspect :=
  { check := check, unit := u, reqs := reqs, pindex := (s.scribe l).pindex, index := index, cause := cause }

end Sys2Proof.Machine
end

