-- ==== Sys2Proof/Machine/Scribes.lean ====
section
/-! DEFINITION. A scribe: its architectural registers (R139), the interlocks (R145, R153), the addresses of R142, what every
instruction goes through from issue to retirement (R140, R146, R153), what is recorded of a core (R255, R261), and the loop rule (R183). -/

namespace Sys2Proof.Machine

/-! ### Architectural registers (R139) -/

/-- Register g[n]: g0 reads 0; a register that nothing has written holds a value R139 leaves open (log entry 4). -/
def Arch.g_ (a : Arch) (l n : Nat) : W64 :=
  if n = 0 then 0#64
  else Tbl.getD a.g n (if a.epoch = 0 then 0#64 else Config.freeReg64 a.epoch 0 n l)
def Arch.a_ (a : Arch) (l n : Nat) : W64 :=
  Tbl.getD a.a n (if a.epoch = 0 then 0#64 else Config.freeReg64 a.epoch 1 n l)
def Arch.v_ (a : Arch) (l n : Nat) : W2048 :=
  Tbl.getD a.v n (if a.epoch = 0 then 0#2048 else Config.freeReg2048 a.epoch 0 n l)
/-- Row `r` of tile `n`. -/
def Arch.t_ (a : Arch) (l n r : Nat) : W2048 :=
  Tbl.getD a.t (64 * n + r) (if a.epoch = 0 then 0#2048 else Config.freeReg2048 a.epoch 1 (64 * n + r) l)
/-- Predicate p[n]: p0 reads 1. -/
def Arch.p_ (a : Arch) (l n : Nat) : Bool :=
  if n = 0 then true else Tbl.getD a.p n (if a.epoch = 0 then false else Config.freeBit a.epoch 0 n l)

/-- Writes to g0 and p0 are discarded. -/
def Arch.setG (a : Arch) (n : Nat) (x : W64) : Arch := if n = 0 then a else { a with g := Tbl.set a.g n x }
def Arch.setA (a : Arch) (n : Nat) (x : W64) : Arch := { a with a := Tbl.set a.a n x }
def Arch.setV (a : Arch) (n : Nat) (x : W2048) : Arch := { a with v := Tbl.set a.v n x }
def Arch.setP (a : Arch) (n : Nat) (x : Bool) : Arch := if n = 0 then a else { a with p := Tbl.set a.p n x }
/-- Writes consecutive vector registers from `n` on. -/
def Arch.setVs (a : Arch) (n : Nat) : List W2048 → Arch
  | [] => a
  | x :: xs => (a.setV n x).setVs (n + 1) xs
/-- Writes the rows of tile `n` from row `r` on. -/
def Arch.setRows (a : Arch) (n r : Nat) : List W2048 → Arch
  | [] => a
  | x :: xs => ({ a with t := Tbl.set a.t (64 * n + r) x }).setRows n (r + 1) xs

/-- The operand registers of an instruction, by field (R152). -/
def rdG (i : Issue) (sc : Scribe) (n : Nat) : W64 := sc.arch.g_ i.lcore n
def rdA (i : Issue) (sc : Scribe) (n : Nat) : W64 := sc.arch.a_ i.lcore n
def rdV (i : Issue) (sc : Scribe) (n : Nat) : W2048 := sc.arch.v_ i.lcore n
def rdVs (i : Issue) (sc : Scribe) (n k : Nat) : List W2048 := (List.range k).map (fun j => rdV i sc (n + j))

/-! ### Interlocks (R145, R153, R155) -/

/-- Registers that an evaluation writes at its delivery (R157). -/
def Eval.refs (e : Eval) : List RegRef :=
  match e.kind with
  | .narrow => [⟨.v, e.dest, 2⟩]
  | .broad => [⟨.v, e.dest, 4⟩]
  | .threshold => [⟨.v, e.dest, 1⟩]
  | .refCodes => [⟨.g, e.dest, 1⟩]
  | .proof => [⟨.v, e.dest, 2⟩]
  | .calib => []
  | .part => []

/-- Evaluations under way on the arrays of a logical core. -/
def evalsOf (s : State) (l : Nat) : List Eval :=
  ((List.range 32).filterMap (fun n => (s.array (arrayKey s l n)).eval)).filter (fun e => e.lcore == l)

/-- Registers with a write pending: evaluations and ligature receipts (R145). -/
def pendingRefs (s : State) (l : Nat) : List RegRef :=
  (evalsOf s l).flatMap Eval.refs ++ (s.scribe l).receipts.map (fun r => ⟨.v, r.dest, 1⟩)

/-- The scoreboard holds an instruction back whose registers have a write pending (R145, R153). -/
def scoreboard (s : State) (l : Nat) (refs : List RegRef) : Bool :=
  (pendingRefs s l).any (fun x => refs.any (fun y => x.overlaps y))

/-- Two SRAM ranges share a 64-byte unit (R145). -/
def unitsMeet (a n b m : Nat) : Bool :=
  decide (a / 64 < (b + m + 63) / 64) && decide (b / 64 < (a + n + 63) / 64)

/-- The address scoreboard holds back a read of SRAM bytes with a write pending (R145). -/
def sramReadWaits (sc : Scribe) (a n : Nat) : Bool :=
  sc.txs.any (fun t => t.write && unitsMeet t.lo t.len a n)
  || sc.recvs.any (fun r => unitsMeet r.lo r.len a n)

/-- A write also waits for a region that a transaction still reads (R145, R155). -/
def sramWriteWaits (sc : Scribe) (a n : Nat) : Bool :=
  sc.txs.any (fun t => unitsMeet t.lo t.len a n) || sc.recvs.any (fun r => unitsMeet r.lo r.len a n)
  || sc.sends.any (fun r => unitsMeet r.lo r.len a n)

/-- Transactions of R155 that a core holds, and that the die holds. -/
def coreTxs (sc : Scribe) : Nat := (sc.txs.filter (fun t => t.kind != .blot)).length
def dieTxs (s : State) : Nat := (s.scribes.map (fun (_, sc) => coreTxs sc)).sum

/-- A new transaction waits while the core holds 64, or the die 16,384 (R155). -/
def txWaits (s : State) (sc : Scribe) : Bool := decide (64 ≤ coreTxs sc) || decide (16384 ≤ dieTxs s)

/-- A number that no transaction, request or receipt of the core has. -/
def newTxId (sc : Scribe) : Nat :=
  1 + ((sc.txs.map (·.id)) ++ (sc.sends.map (·.id)) ++ (sc.recvs.map (·.id))).foldl max 0

def addTx (sc : Scribe) (kind : TxKind) (write : Bool) (lo len : Nat) : Scribe :=
  { sc with txs := sc.txs ++ [{ id := newTxId sc, kind := kind, write := write, lo := lo, len := len }] }

/-! ### Addresses (R142) -/

/-- Fault codes of `PLAN.FAULT` (R151). -/
def fSram : Nat := 1
def fHbm : Nat := 2
def fSpace : Nat := 3
def fCore : Nat := 4
def fCross : Nat := 5
def fEncoding : Nat := 6
def fOrder : Nat := 7
def fLigature : Nat := 8

def space (a : W64) : Nat := (a.extractLsb' 60 4).toNat
/-- Bits [59:0]: in space 0 the whole offset counts, so a bit above [20:0] is out of range. -/
def offset60 (a : W64) : Nat := (a.extractLsb' 0 60).toNat
def offset48 (a : W64) : Nat := (a.extractLsb' 0 48).toNat

/-- The fault of an access of `n` bytes to core SRAM, aligned to 64 bytes (R142, R169, R170); 0 for none. -/
def sramFault (a : W64) (n : Nat) : Nat :=
  if 5 ≤ space a then fSpace
  else if space a ≠ 0 then fHbm
  else if offset60 a % 64 ≠ 0 then fEncoding
  else if 0x180000 < offset60 a + n then fSram
  else 0

/-- The fault of an access of `n` bytes to one of the HBM spaces `admitted`, each with its size (R142); 0 for none. -/
def hbmFault (admitted : List (Nat × Nat)) (a : W64) (n : Nat) : Nat :=
  if 5 ≤ space a then fSpace
  else if a.toNat % 64 ≠ 0 then fEncoding
  else
    match admitted.find? (fun (k, _) => k == space a) with
    | none => fHbm
    | some (_, size) =>
      if (a.extractLsb' 48 12) ≠ 0#12 ∨ size < offset48 a + n then fHbm else 0

/-! ### Loops and branches (R182, R183) -/

/-- The loop-end rule when the instruction at `idx` retires without redirecting: loops, innermost first, and the next index. -/
def loopEnd : List LoopRec → Nat → List LoopRec × Nat
  | [], idx => ([], idx + 1)
  | r :: rest, idx =>
    if r.last = idx then
      if 1 < r.left then ({ r with left := r.left - 1 } :: rest, r.start) else loopEnd rest idx
    else (r :: rest, idx + 1)

/-- Loops left active by a taken branch to `target`. -/
def loopsAfterBranch (ls : List LoopRec) (target : Nat) : List LoopRec :=
  ls.dropWhile (fun r => !(decide (r.start ≤ target) && decide (target ≤ r.last)))

/-- The instruction at pc retires: the next index is that of the loop-end rule. -/
def retire (s : State) (l : Nat) : State :=
  let sc := s.scribe l
  let r := loopEnd sc.loops sc.pc
  s.setScribe l { sc with loops := r.1, pc := r.2 }

/-- A taken branch; a target beyond the role faults with ENCODING. -/
def branchTo (s : State) (l target : Nat) : State :=
  let sc := s.scribe l
  if sc.nInstr ≤ target then progFault s l fEncoding (BitVec.ofNat 64 target) sc.pc
  else s.setScribe l { sc with loops := loopsAfterBranch sc.loops target, pc := target }

/-! ### What is recorded of a core (R255, R261) -/

def vBytes (v : W2048) : List Byte := (List.range 256).map (fun k => v.extractLsb' (8 * k) 8)

/-- The slot of an item. -/
def itemSlot : Item → Nat
  | .record n _ _ _ => n
  | .kv n _ _ _ _ _ => n
  | .state n _ _ => n
  | .spec n _ _ => n

/-- A value enters the core. -/
def noteIn (bs : List Byte) (sc : Scribe) : Scribe := if sc.traced then { sc with trace := sc.trace ++ [bs] } else sc

/-- A value leaves the core: it goes into the digest, which is computed as the step digest is (R207). -/
def noteOut (bs : List Byte) (sc : Scribe) : Scribe :=
  if sc.traced then { sc with outDig := crcBytes 64 0x42F0E1EBA9EA3693#64 sc.outDig bs } else sc

/-! ### Inline checks of an instruction (R102, R210, R247, R425) -/

/-- An error that a read of a memory stack found: counted and located on the stack's page (R425, R426). -/
def hbmError (s : State) (k addr part : Nat) (ue : Bool) : State :=
  let x := s.stack k
  let x' := { x with
    ce := if ue then x.ce else sat 32 (x.ce + 1), ue := if ue then sat 16 (x.ue + 1) else x.ue,
    ceSecond := if ue then x.ceSecond else x.ceSecond + 1,
    errAddr := addr % 2 ^ 37, errUe := ue, errChan := s.freeNat 32, errSym := if ue then 2 else 1, errPart := part,
    errReserve := false }
  let s1 := (s.setStack k x').nextFree
  if ue then raise s1 (pgHbm k) 0 else s1

/-- A replay of the partition computes core `c` twice (R255). -/
def coreReplayed (s : State) (p c : Nat) : Bool := match s.job p with
  | some j => j.replaying && (match j.hold with
      | some h => h.units.contains (.core c)
      | none => false)
  | none => false

/-- What an instruction's inline checks found, with the HBM location that it reads and the requests that it touches. In a replay that
computes the core twice, what the core itself sends and stages must equal what its substitute does (R255). -/
def applyHw (s : State) (i : Issue) (index : Nat) (loc : FaultUnit × SuspectSet) : State :=
  let c := roleCore s i.lcore
  let x := s.pcore c
  let p := (s.scribe i.lcore).part
  let sus (t : State) (check : Nat) (u : FaultUnit) (q : SuspectSet) : State :=
    failCheck t p (mkSuspect t i.lcore check u q index 0)
  let s1 := match i.hw with
    | .ok => s
    | .residue => sus (s.setPcore c { x with resFail := sat 16 (x.resFail + 1) }) 4 (.core c) .all
    | .sramCorrected a =>
      s.setPcore c { x with sramCe := sat 16 (x.sramCe + 1), sramLast := a / 8 * 8 % 2 ^ 21, sramLastUe := false }
    | .sramUncorrectable a =>
      sus (s.setPcore c { x with sramUe := sat 16 (x.sramUe + 1), sramLast := a / 8 * 8 % 2 ^ 21, sramLastUe := true })
        5 (.core c) .all
    | .hbmCorrected k a => hbmError s k a p false
    | .hbmUncorrectable k a => sus (hbmError s k a p true) 7 (loc.1.atStack k) loc.2
    | .storeUncorrectable => sus s 6 (.core c) .all
    | .blotterUncorrectable none => sus s 6 (.core c) .all
    | .blotterUncorrectable (some n) => sus s 6 (.core c) (.slot n)
    | .dma => sus s 12 (.core c) .all
  let s2 := match i.hwOther with
    | .ok => s1
    | .sramCorrected _ => s1
    | .hbmCorrected _ _ => s1
    | .residue => failOther s1 p
    | .sramUncorrectable _ => failOther s1 p
    | .hbmUncorrectable _ _ => failOther s1 p
    | .storeUncorrectable => failOther s1 p
    | .blotterUncorrectable _ => failOther s1 p
    | .dma => failOther s1 p
  match i.sameDigest with
  | none => s2
  | some d => if coreReplayed s2 p c && d != (s2.scribe i.lcore).outDig then sus s2 0 (.core c) .all else s2

/-! ### Issue (R140, R146, R152, R153) -/

/-- What an instruction does once its operands are free. -/
inductive Ran where
  /-- an interlock holds it back -/
  | wait
  /-- a program fault: code and address (R146) -/
  | fault (code : Nat) (addr : W64)
  /-- a taken branch -/
  | jump (s : State) (target : Nat)
  /-- pc and loops are already set, or the scribe has stopped -/
  | stays (s : State)
  | done (s : State)

/-- The role's code holds the instruction at the pc (R130): the scribe fetches nothing else. -/
def fetched (c : Opcode) (i : Issue) (s : State) : Bool :=
  let sc := s.scribe i.lcore
  match (s.part sc.part).plan.bind (fun pl => (pl.roles.getD sc.role [])[sc.pc]?) with
  | some w => encodeScribe c i.f == w
  | none => true

/-- A scribe issues an instruction: a scribe that is not running, or that waits in BAR, issues nothing, and none issues what its
instruction store does not hold at the pc; a fetch beyond the role, or an encoding the loader would refuse, faults; a guard of 0 retires it without effect; the scoreboard holds it back. -/
def issueAt (c : Opcode) (i : Issue) (s : State) (loc : Scribe → State → FaultUnit × SuspectSet)
    (act : Scribe → State → Ran) : State :=
  let sc := s.scribe i.lcore
  if sc.mode ≠ .running ∨ sc.atBar ∨ !fetched c i s then s
  else if sc.nInstr ≤ sc.pc ∨ !opOk c i.f then progFault s i.lcore fEncoding 0#64 sc.pc
  else if !sc.arch.p_ i.lcore i.f.guard.toNat then retire s i.lcore
  else if scoreboard s i.lcore (opRefs c i.f) then s
  else
    match act sc s with
    | .wait => s
    | .fault code addr => progFault s i.lcore code addr sc.pc
    | .jump t target => branchTo (applyHw t i sc.pc (loc sc s)) i.lcore target
    | .stays t => applyHw t i sc.pc (loc sc s)
    | .done t => retire (applyHw t i sc.pc (loc sc s)) i.lcore

def noLoc : Scribe → State → FaultUnit × SuspectSet := fun _ _ => (.hbmImage 0, .all)

def issue (c : Opcode) (i : Issue) (s : State) (act : Scribe → State → Ran) : Host.Outcome State Fault Refusal :=
  .next (issueAt c i s noLoc act)

/-- An instruction whose whole effect is on the architectural registers. -/
def archOp (c : Opcode) (i : Issue) (s : State) (f : Scribe → Arch) : Host.Outcome State Fault Refusal :=
  issue c i s (fun sc t => .done (t.setScribe i.lcore { sc with arch := f sc }))

/-- As `archOp`, for an instruction that may fault with ENCODING. -/
def archOp? (c : Opcode) (i : Issue) (s : State) (f : Scribe → Option Arch) : Host.Outcome State Fault Refusal :=
  issue c i s (fun sc t =>
    match f sc with
    | none => .fault fEncoding 0#64
    | some a => .done (t.setScribe i.lcore { sc with arch := a }))

end Sys2Proof.Machine
end

