-- ==== Sys2Proof/Machine/Windows.lean ====
section
/-! DEFINITION. The window layout of a stroke (R83, R86) and the broad budget (R88). -/

namespace Sys2Proof.Machine

/-- The instant just after a boundary. -/
def atBoundary (s : State) : Bool := strokesRun s && s.stroke.count == 0 && !s.shut

/-- A field of the active layout, clamped (R86, R99). -/
def layoutField (s : State) (lo bot top : Nat) : Nat :=
  max bot (min top ((s.stroke.layoutAct.extractLsb' lo 8).toNat))

/-- t_I, t_C, t_X, t_B, t_N and L of R83, in reference periods. -/
def tI (s : State) : Nat := max (s.stroke.periodAct * layoutField s 0 2 40 / 200) 100
def tC (s : State) : Nat := max (s.stroke.periodAct * layoutField s 8 8 40 / 200) 800
def tX (s : State) : Nat := s.stroke.periodAct - tI s - tC s
def tB (s : State) : Nat := tX s * layoutField s 16 0 100 / 200
def tN (s : State) : Nat := tX s - tB s
def tL (s : State) : Nat := min (16 * layoutField s 24 8 255) (tC s)

/-- Counts of the status point and the decision point (R83). -/
def statusAt (s : State) : Nat := s.stroke.periodAct - tL s
def decisionAt (s : State) : Nat := s.stroke.periodAct - tL s / 2

/-- B of R88: the broad budget in region cycles. DESIGN CHOICE (log entry 98): R88 does not say whether the budget of a step in progress
follows a switch of layout or period in mid-step; it is that of the layout active at the issue. -/
def broadBudget (s : State) : Nat := tB s * 1088 / 100

/-- Cycles covered by the intervals, whose beginnings do not fall; `top` is the end of what is counted so far. -/
def covered : Nat → List (Nat × Nat) → Nat
  | _, [] => 0
  | top, (a, b) :: rest => (b - max a top) + covered (max top b) rest

/-- Puts an interval in the order of beginnings. -/
def insertInterval (x : Nat × Nat) : List (Nat × Nat) → List (Nat × Nat)
  | [] => [x]
  | y :: ys => if x.1 ≤ y.1 then x :: y :: ys else y :: insertInterval x ys

/-- U of R88: cycles covered by at least one granted pass of the step. -/
def broadUsed (grants : List (Nat × Nat)) : Nat := covered 0 grants

/-- The limit of R132 under the active layout. -/
def planLimit (s : State) : Nat := (s.stroke.periodAct - tL s - tB s - tI s) * 1088 / 100

end Sys2Proof.Machine
end

