-- ==== Sys2Proof/Machine/ArrayOps.lean ====
section
/-! DEFINITION. The issue of array instructions (R156, R158 to R162, R165) and the grant decision of R88. -/

namespace Sys2Proof.Machine

/-! ### Fair copy of an instruction on the core's own engine (R156) -/

/-- Ideal codes of all columns, in two registers (R27). -/
def idealCodes (code : Nat → Byte) (ps : List Int) (rng : Nat) : List Int :=
  (List.range 512).map (fun j => idealCode (colSum code ps j) rng)

def packPair (cs : List Int) : List W2048 := let r := packCodes cs; [r.1, r.2]

/-- Ideal threshold bits (R32), bit j for column j. -/
def idealBits (code : Nat → Byte) (ps : List Int) (rng : Nat) (th : List Int) : List Nat :=
  (List.range 512).map (fun j => if idealBit (colSum code ps j) rng (th.getD j 0) then 1 else 0)

/-- The word of AREFC (R162). -/
def refWord (codes : List Int) (valid lim : Bool) : W64 :=
  BitVec.ofNat 64 (packNat 8 (codes.map byteOf) + (if valid then 2 ^ 56 else 0) + if lim then 2 ^ 57 else 0)

/-- Fair copy needs a tile that can be read; a lost tile makes the step suspect (R277, R295). -/
def useTile (s : State) (i : Issue) (sc : Scribe) (t : Option Nat) : State :=
  if tileLost s sc.part t then
    failCheck s sc.part (mkSuspect s i.lcore 7 (.hbmImage 0) .all sc.pc 0)
  else s

/-! ### Occupying an array (R145, R153) -/

/-- The evaluation of an instruction on array `n` as latched at cycle 0 (R26, R29, R33). -/
def mkEval (s : State) (i : Issue) (sc : Scribe) (n : Nat) (kind : EvalKind) (d : Drive) (th : List Int)
    (fair : Bool) : Eval :=
  let a := s.array (arrayKey s i.lcore n)
  { kind := kind, lcore := i.lcore, index := sc.pc, dest := i.f.dest.toNat, drive := d, range := a.range,
    gain := a.gain, offs := a.offs, trims := a.trims, thresh := th, seed := 0#64, fair := fair, wanted := true }

/-- Starts an evaluation; `count` evaluations are counted where the array itself evaluates (R49, R156). -/
def occupy (s : State) (k : Nat) (e : Eval) (count : Nat) : State :=
  let a := s.array k
  s.setArray k { a with eval := some e, evCnt := if e.fair then a.evCnt else (a.evCnt + count) % 2 ^ 32 }

/-- An array instruction with a B4 slice: waits for its array, then runs on the array, on a prover or shadow, or on the core's
own engine, whose result is `own` of the codes and the drive values (R156). -/
def narrowOp (c : Opcode) (i : Issue) (s : State) (kind : EvalKind) (th : Scribe → List Int)
    (own : State → Scribe → (Nat → Byte) → List Int → Nat → Arch) : Host.Outcome State Fault Refusal :=
  issue c i s (fun sc t =>
    let n := immBits i.f 0 5
    let k := arrayKey t i.lcore n
    let hdr := rdG i sc i.f.src2.toNat
    let ps := drives hdr (slice4 (rdV i sc i.f.src1.toNat))
    match serviceOf t i.lcore n with
    | .engine =>
      if hdrFmtB8 hdr then .fault fEncoding 0#64
      else
        let tile := boundTile t i.lcore n
        let t1 := useTile t i sc tile
        .done (t1.setScribe i.lcore { sc with arch := own t sc (fairCode t sc.part tile) ps (t.array k).range })
    | v =>
      if (t.array k).eval.isSome then .wait
      else if hdrFmtB8 hdr then .fault fEncoding 0#64
      else
        let t1 := occupy t k (mkEval t i sc n kind (.narrow ps) (th sc) (v == .prover)) 1
        .done (t1.setScribe i.lcore (noteOut (vBytes (rdV i sc i.f.src1.toNat) ++ leBytes 8 hdr.toNat) sc)))

/-- AEVAL (R158). -/
def execAeval (i : Issue) (s : State) : Host.Outcome State Fault Refusal :=
  narrowOp .aeval i s .narrow (fun _ => [])
    (fun _ sc code ps rng => sc.arch.setVs i.f.dest.toNat (packPair (idealCodes code ps rng)))

/-- Signed bytes of a register pair, in the layout of R158. -/
def pairBytes (v0 v1 : W2048) : List Int := (List.range 512).map (codeAt v0 v1)

/-- ATHR (R160): thresholds in the pair that imm[10:5] names. -/
def execAthr (i : Issue) (s : State) : Host.Outcome State Fault Refusal :=
  let th (sc : Scribe) : List Int :=
    pairBytes (rdV i sc (immBits i.f 5 6)) (rdV i sc (immBits i.f 5 6 + 1))
  narrowOp .athr i s .threshold th
    (fun _ sc code ps rng => sc.arch.setV i.f.dest.toNat (packV 1 (idealBits code ps rng (th sc))))

/-- AREFC (R162). -/
def execArefc (i : Issue) (s : State) : Host.Outcome State Fault Refusal :=
  narrowOp .arefc i s .refCodes (fun _ => [])
    (fun t sc _ ps rng =>
      let a := t.array (arrayKey t i.lcore (immBits i.f 0 5))
      sc.arch.setG i.f.dest.toNat
        (refWord ((List.range 7).map (fun k => idealCode (refD (k + 1) ps) rng)) a.trackValid a.trackLim))

/-! ### Broad passes (R88 to R90, R159) -/

/-- The grant of an AEVALB (R88, R89, R93): the recorded one in a replay; none in a restarted step; under STRETCH always;
otherwise by the budget and the rank. -/
def grantOf (s : State) (j : Job) (sc : Scribe) (rank : Nat) : Bool :=
  match sc.broadReplay with
  | g :: _ => g
  | [] =>
    if j.refuseAll then false
    else if !j.partialPol then true
    else decide (broadUsed sc.grants + 1280 ≤ broadBudget s - broadBudget s * rank / 8)

/-- The job and the scribe after a broad request (R88 to R90). A decision taken from the record stands in it already (R252). -/
def countRequest (s : State) (i : Issue) (sc : Scribe) (granted : Bool) (pos : Nat) : State :=
  let s1 := s.updJob sc.part (fun j => { j with
    broadReq := j.broadReq + 1
    broadRefused := if granted then j.broadRefused else j.broadRefused + 1
    refusedAt := if granted then j.refusedAt else Tbl.set j.refusedAt pos (Tbl.getD j.refusedAt pos 0 + 1) })
  s1.setScribe i.lcore { sc with
    broadLog := if sc.broadReplay.isEmpty then sc.broadLog ++ [granted] else sc.broadLog
    broadReplay := sc.broadReplay.drop 1
    grants := if granted then insertInterval (i.cycle, i.cycle + 1280) sc.grants else sc.grants
    arch := sc.arch.setP (immBits i.f 8 3) granted }

/-- AEVALB (R159). -/
def execAevalb (i : Issue) (s : State) : Host.Outcome State Fault Refusal :=
  issue .aevalb i s (fun sc t =>
    let n := immBits i.f 0 5
    let k := arrayKey t i.lcore n
    let hdr := rdG i sc i.f.src2.toNat
    let v := serviceOf t i.lcore n
    match t.job sc.part with
    | none => .wait
    | some j =>
      if v ≠ .engine ∧ (t.array k).eval.isSome then .wait
      else if !hdrFmtB8 hdr ∨ hdrBadEup hdr then .fault fEncoding 0#64
      else
        let granted := grantOf t j sc (immBits i.f 5 3)
        let t1 := countRequest t i sc granted ((rdG i sc (immBits i.f 11 5)).toNat % 65536)
        if !granted then .done t1
        else
          let x := i.f.src1.toNat
          let ms := slice8 (rdV i sc x) (rdV i sc (x + 1))
          let hi := drives hdr (ms.map digHi)
          let lo := drives hdr (ms.map digLo)
          match v with
          | .engine =>
            let tile := boundTile t i.lcore n
            let code := fairCode t sc.part tile
            let rng := (t.array k).range
            let t2 := useTile t1 i sc tile
            let sc2 := t2.scribe i.lcore
            let out := sc2.arch.setVs i.f.dest.toNat (packPair (idealCodes code hi rng) ++ packPair (idealCodes code lo rng))
            .done (t2.setScribe i.lcore { sc2 with arch := out })
          | _ =>
            let t2 := occupy t1 k (mkEval t1 i sc n .broad (.broad hi lo) [] (v == .prover)) 2
            .done (t2.setScribe i.lcore
              (noteOut (vBytes (rdV i sc x) ++ vBytes (rdV i sc (x + 1)) ++ leBytes 8 hdr.toNat) (t2.scribe i.lcore))))

/-! ### ARANGE and APROOF (R161, R165) -/

/-- Writes the range shift of an array; its tracking window is discarded (R35, R161). -/
def setRange (s : State) (k r : Nat) : State :=
  s.setArray k { s.array k with range := r, sums := TrackSums.zero }

/-- ARANGE (R161): never waits for a busy array. -/
def execArange (i : Issue) (s : State) : Host.Outcome State Fault Refusal :=
  issue .arange i s (fun sc t =>
    let mask := (rdG i sc i.f.src1.toNat).toNat
    .done (((List.range 32).filter (fun n => mask.testBit n)).foldl
      (fun u n => setRange u (arrayKey u i.lcore n) (immBits i.f 0 4)) t))

/-- One step of the generator of R165. -/
def proofNextState (st : W64) : W64 :=
  let a := st ^^^ (st <<< 13)
  let b := a ^^^ (a >>> 7)
  b ^^^ (b <<< 17)

/-- The mantissas of APROOF from the generator's state (R165). -/
def proofMants : Nat → W64 → List Int
  | 0, _ => []
  | n + 1, st =>
    let x := proofNextState st
    ((((x >>> 60).toNat % 15 : Nat) : Int) - 7) :: proofMants n x

/-- Drive values of APROOF: e_ref 0, offsets b mod 4 (R165). -/
def proofDrives (seed : W64) : List Int :=
  let st := if seed = 0#64 then 0x9E3779B97F4A7C15#64 else seed
  (proofMants 512 st).zipIdx.map (fun (m, i) => m * 2 ^ (3 - i / 32 % 4))

/-- A proof that was skipped is reported to the integrity block (R156). -/
def skipProof (s : State) (k : Nat) : State :=
  { s with integ := { s.integ with skipped := s.integ.skipped ++ [(k, s.stroke.number)] } }

/-- APROOF (R165): on an array out of service it completes without evaluating, and the proof is skipped (R156). -/
def execAproof (i : Issue) (s : State) : Host.Outcome State Fault Refusal :=
  issue .aproof i s (fun sc t =>
    let n := immBits i.f 0 5
    let k := arrayKey t i.lcore n
    match serviceOf t i.lcore n with
    | .array =>
      if (t.array k).eval.isSome then .wait
      else
        let seed := rdG i sc i.f.src1.toNat
        let e := mkEval t i sc n .proof (.narrow (proofDrives seed)) [] false
        .done (occupy t k { e with range := immBits i.f 5 4, seed := seed } 1)
    | _ => if (t.array k).eval.isSome && serviceOf t i.lcore n == .prover then .wait else .done (skipProof t k))

end Sys2Proof.Machine
end

