-- ==== Sys2Proof/Machine/ArrayDelivery.lean ====
section
/-! DEFINITION. The delivery of an array evaluation: codes within their band, threshold bits outside their guard band, the
checks of R38 to R41, tracking (R35) with drift and spread (R49, R284). -/

namespace Sys2Proof.Machine

/-! ### Drift (R49) -/

/-- DRIFT of R49: round((a_A * (1 + alpha * (T_TRACK - T_CAL)) - 1) * 2^16), temperatures in 1/16 degree C. -/
def driftOf (s : State) (gain : Nat) (tTrk tCal : Int) : Int :=
  roundHalfAway (2 * (gain : Int) * (160000 + alpha s * (tTrk - tCal)) - 65536 * 160000) 160000

/-- The 12-bit temperature fields of the core page, as signed numbers. -/
def temp12 (n : Nat) : Int := if n % 4096 < 2048 then (n % 4096 : Nat) else (n % 4096 : Nat) - 4096

/-- `CORE.ARRn_DRIFT.DRIFT` of an array: R49 defines it by A_GAIN, T_TRACK and T_CAL as they stand. -/
def arrayDrift (s : State) (k : Nat) : Int :=
  driftOf s (s.array k).gain (temp12 (s.array k).tTrk) (temp12 (s.pcore (k / 32)).tCal)

/-! ### Accuracy (R32, R45) -/

/-- Width of the band, and of the guard band: by the array's state, its temperature and its tracking; none above 105 degrees C
or beyond rated life. `beyond` is the width for an array beyond rated life, where a criterion has one (R266). -/
def bandWidth (a : ArrayUnit) (drift temp : Int) (beyond : Option Nat) : Option Nat :=
  if 1680 < temp then none
  else
    let outer : Nat := if 480 ≤ temp ∧ temp ≤ 1520 then 0 else 1
    let late : Nat := if a.trackValid then 0 else 1
    if 10000 < a.writeCnt ∨ (a.driftTh : Int) < |drift| then beyond.map (fun b => b + outer + late)
    else if a.writeCnt ≤ 1000 ∧ 2 * |drift| < a.driftTh then some (1 + outer + late)
    else some (2 + outer + late)

/-- The row of R45 for trim adapters active: the bound on the adapted output of a projection, in codes of each row tile, of an
array at the end of its rated life once a version has been accepted (R70). It binds what the digital engine makes of the
codes with the version in service, and leaves the codes themselves to `bandWidth`. -/
def adaptedBand (temp : Int) (tracked : Bool) : Option Nat :=
  if 1680 < temp then none
  else some ((if 480 ≤ temp ∧ temp ≤ 1520 then 1 else 2) + if tracked then 0 else 1)

/-- TRACK_EN of a core (R48). -/
def trackEn (s : State) (c : Nat) : Bool := (s.reg (pgCore c) 0x380).getLsbD 0

/-- The band that binds a reading in service: a faulty array has none, and R45 requires valid trims and tracking. -/
def serviceBand (s : State) (k : Nat) (rd : Reading) : Option Nat :=
  if rd.fault || (s.array k).broken || !trimOk s k || !trackEn s (k / 32) then none
  else bandWidth (s.array k) (arrayDrift s k) rd.temp none

/-- The gain and the offset trim that column `c` of the converted ones was evaluated with: data columns, check columns, then REF1
to REF7 (R33, R42). -/
def Eval.trimG (e : Eval) (c : Nat) : Int := e.trims.getD (2 * c) 0
def Eval.trimO (e : Eval) (c : Nat) : Int := e.trims.getD (2 * c + 1) 0

/-- v_j of R33 as a fraction: the numerator over `convDen`. D has an error of `eps` in units of 2^-16. -/
def convDen (rng : Nat) : Nat := 2 ^ (42 + rng)
def convNum (e : Eval) (c : Nat) (d eps : Int) : Int :=
  (e.gain : Int) * (2048 + e.trimG c) * (65536 * d + eps) + (4 * e.trimO c + e.offs) * 2 ^ 36

/-- The exact D of column `j` of the cells that an array holds (R25). -/
def arrayD (s : State) (k : Nat) (ps : List Int) (j : Nat) : Int := colD (s.array k).cells ps j

/-- What data column `j` holds when conversion begins: v_j, with the charge that a fault adds. -/
def heldCharge (s : State) (k : Nat) (e : Eval) (ps : List Int) (rd : Reading) (j : Nat) : Int :=
  convNum e j (arrayD s k ps j) (rd.eps.getD j 0)
    + (if rd.fault then rd.charge.getD j 0 * (convDen e.range / 16 : Nat) else 0)

/-- The code and the residual, over `convDen`, of one column: round(v_j), clamped (R33); with the band `w` an error that would
carry the code out of it is one that brings it to its edge (R45); a conversion fault shifts the code (R40). -/
def convert1 (band : Option Nat) (ideal : Int) (den : Nat) (v shift : Int) : Int × Int :=
  let c0 := clampInt (roundHalfAway v den) (-128) 127
  let v1 := match band with
    | none => v
    | some w => if ideal + w < c0 then (ideal + w) * den else if c0 < ideal - w then (ideal - w) * den else v
  let c := clampInt (roundHalfAway v1 den + shift) (-128) 127
  (c, v1 - c * den)

/-- Codes and residuals of the data columns of a narrow evaluation or of one half of a broad pass (R27, R33, R38, R45). -/
def columnsOf (s : State) (k : Nat) (e : Eval) (ps : List Int) (rd : Reading) : List (Int × Int) :=
  let band := serviceBand s k rd
  (List.range 512).map (fun j =>
    convert1 band (idealCode (arrayD s k ps j) e.range) (convDen e.range) (heldCharge s k e ps rd j)
      (if rd.fault then rd.conv.getD j 0 else 0))

/-- The codes delivered. -/
def deliveredCodes (s : State) (k : Nat) (e : Eval) (ps : List Int) (rd : Reading) : List Int :=
  (columnsOf s k e ps rd).map (fun x => x.1)

/-- The codes of REF1 to REF7 (R34). -/
def refCodes (s : State) (k : Nat) (e : Eval) (ps : List Int) (rd : Reading) : List Int :=
  (List.range 7).map (fun r => clampInt (roundHalfAway
    (convNum e (520 + r) (arrayD s k ps (refCol (r + 1))) (rd.epsRef.getD r 0)) (convDen e.range)) (-128) 127)

/-- Threshold bits: ideal outside the guard band; the comparison of v_j with the threshold inside it (R31, R32). -/
def deliveredBits (s : State) (k : Nat) (e : Eval) (ps th : List Int) (rd : Reading) : List Nat :=
  let band := serviceBand s k rd
  (List.range 512).map (fun j =>
    let t := th.getD j 0
    let raw := if t * convDen e.range ≤ heldCharge s k e ps rd j then 1 else 0
    match band with
    | none => raw
    | some w =>
      let d := arrayD s k ps j
      if (w : Int) * 2 ^ e.range < |d - t * 2 ^ e.range| then (if idealBit d e.range t then 1 else 0) else raw)

/-! ### Checks (R38 to R41, R48, R163) -/

/-- A check enable of `CORE.ARR_GCTRL`, which reads 1 in SEALED (R48). -/
def checkEn (s : State) (c bit : Nat) : Bool := s.sec.lcState == 1 || (s.reg (pgCore c) 0x380).getLsbD bit

/-- Conversion check of one column (R38): the residual, over `den`, within the window in 1/16 code, or a saturated column's on
the side of its saturation. -/
def convPass (window : Int) (den : Nat) (x : Int × Int) : Bool :=
  decide (16 * |x.2| ≤ window * den) || (decide (x.1 = 127) && decide (0 < x.2)) || (decide (x.1 = -128) && decide (x.2 < 0))

/-- What the charge check of one group says: unchecked, check-column fault, failed, and rho (R39, R41). -/
structure GroupCheck where
  unchk : Bool
  col   : Bool
  fail  : Bool
  rho   : Int
  deriving DecidableEq, Repr

/-- The converted residual sum of group `g`, in 1/16 code (R39). -/
def groupRes (cols : List (Int × Int)) (den g : Nat) : Int :=
  roundHalfAway (16 * (((cols.drop (256 * g)).take 256).map (fun x => x.2)).sum) den

/-- 16 times the sum of the group's codes. -/
def groupCodes (cols : List (Int × Int)) (g : Nat) : Int := 16 * (((cols.drop (256 * g)).take 256).map (fun x => x.1)).sum

/-- The converted check node of group `g`, in 1/16 code (R37, R39): what the codes and residuals say of the data columns, less what
a fault adds to them, plus what the check digits hold beyond the data columns, plus the error of the check. In a
fault-free array within the accuracy table that error is at most 0.75 code (R40); otherwise the range of the converter,
32,768 codes either way, applies. -/
def checkNode (s : State) (k : Nat) (e : Eval) (ps : List Int) (rd : Reading) (clean : Bool) (cols : List (Int × Int))
    (g : Nat) : Int :=
  let m := (s.array k).cells
  let base := groupCodes cols g + groupRes cols (convDen e.range) g
  let extra := roundHalfAway (16 * (e.gain : Int) * (checkSum m ps g - groupSum m ps g)) (2 ^ (15 + e.range))
  if clean then base + extra + clampInt (rd.rho.getD g 0) (-12) 12
  else
    let added := if rd.fault then rd.chk.getD g 0 - ((rd.charge.drop (256 * g)).take 256).sum else 0
    clampInt (base + extra + added + rd.rho.getD g 0) (-(32768 * 16)) (32768 * 16)

/-- The charge check of group `g` (R39 to R41). The check nodes differ by more than the band in a faulty array only. -/
def groupCheck (s : State) (k : Nat) (e : Eval) (ps : List Int) (rd : Reading) (clean : Bool) (band : Int)
    (cols : List (Int × Int)) (g : Nat) : GroupCheck :=
  let res := groupRes cols (convDen e.range) g
  if 8192 < |res| then { unchk := true, col := false, fail := false, rho := 0 }
  else
    let rho := checkNode s k e ps rd clean cols g - groupCodes cols g - res
    let col := rd.fault && decide (band < |rd.dup.getD g 0|)
    { unchk := false, col := col, fail := col || decide (band < |rho|), rho := rho }

/-- The value of larger magnitude; between equal magnitudes the manual does not choose (log entry 3). -/
def largerRho (s : State) (x y : Int) : Int :=
  if |x| < |y| then y else if |y| < |x| then x else if s.freeNat 2 = 0 then x else y

/-- The checks of one narrow evaluation or half: what was found. -/
structure Found where
  win   : Bool
  fail  : Bool
  col   : Bool
  unchk : Nat
  rho   : Option Int
  deriving DecidableEq, Repr

/-- BAND and WINDOW of `CORE.ARR_CHKCFG` as they act (R48). -/
def chkBand (s : State) (c : Nat) : Int := max 0x20 (min 0x30 (s.field (pgCore c) 0x384 0 8 : Nat))
def chkWindow (s : State) (c : Nat) : Int := max 0x0C (min 0x10 (s.field (pgCore c) 0x384 8 8 : Nat))

/-- What the enabled checks find (R38 to R41, R48). -/
def findings (s : State) (k : Nat) (e : Eval) (ps : List Int) (rd : Reading) : Found :=
  let c := k / 32
  let cols := columnsOf s k e ps rd
  let clean := (serviceBand s k rd).isSome
  let gs := if checkEn s c 2 then (List.range 2).map (groupCheck s k e ps rd clean (chkBand s c) cols) else []
  let rhos := (gs.filter (fun g => !g.unchk)).map (fun g => g.rho)
  { win := checkEn s c 1 && cols.any (fun x => !convPass (chkWindow s c) (convDen e.range) x)
    fail := gs.any (fun g => g.fail), col := gs.any (fun g => g.col)
    unchk := (gs.filter (fun g => g.unchk)).length
    rho := match rhos with
      | [x, y] => some (largerRho s x y)
      | [x] => some x
      | _ => none }

/-- The check log of a step after one more evaluation of the instruction at `index` (R163). -/
def CheckLog.add (g : CheckLog) (index : Nat) (f : Found) : CheckLog :=
  { fail := g.fail || f.fail, win := g.win || f.win, unchk := g.unchk || decide (0 < f.unchk), chkCol := g.chkCol || f.col
    index := if (f.fail || f.win) && !(g.fail || g.win) then index else g.index }

/-- The checks of one evaluation or half: counters, the array's last results, and, where the step that issued it still wants its
results, the step's check log (R29, R38 to R41, R48, R49, R163). -/
def checkHalf (s : State) (k : Nat) (e : Eval) (ps : List Int) (rd : Reading) : State :=
  let c := k / 32
  let f := findings s k e ps rd
  let x := s.pcore c
  let s1 := s.setPcore c { x with
    chgFail := if f.fail then sat 16 (x.chgFail + 1) else x.chgFail
    winFail := if f.win then sat 16 (x.winFail + 1) else x.winFail
    unchk := sat 32 (x.unchk + f.unchk) }
  let a := s1.array k
  let chgOn := checkEn s c 2
  (s1.setArray k { a with
    lastRes := f.rho.getD a.lastRes
    lastFail := if chgOn then f.fail else a.lastFail
    lastUnchk := if chgOn then decide (0 < f.unchk) else a.lastUnchk
    chkCol := if chgOn then f.col else a.chkCol
    lastWin := if checkEn s c 1 then f.win else a.lastWin
    log := if e.wanted then a.log.add e.index f else a.log }).nextFree

/-! ### Tracking (R34, R35, R49, R284, R285) -/

/-- TRACK_WIN and TRACK_SHIFT as they act (R48). -/
def trackWin (s : State) (c : Nat) : Nat := max 32 (s.field (pgCore c) 0x380 8 8)
def trackShift (s : State) (c : Nat) : Nat :=
  let v := s.field (pgCore c) 0x380 4 4
  if 1 ≤ v ∧ v ≤ 8 then v else 4

/-- The sums of a window over its pairs: n, ΣD, Σm, ΣDD, ΣDm. -/
structure PairSums where
  n  : Int
  d  : Int
  m  : Int
  dd : Int
  dm : Int
  deriving DecidableEq, Repr

def pairSums (ps : List (Nat × Int × Int)) : PairSums :=
  { n := ps.length, d := (ps.map (fun x => x.2.1)).sum, m := (ps.map (fun x => x.2.2)).sum,
    dd := (ps.map (fun x => x.2.1 * x.2.1)).sum, dm := (ps.map (fun x => x.2.1 * x.2.2)).sum }

/-- n n s_ee minus s_e s_e, times 4^range. -/
def PairSums.det (p : PairSums) : Int := p.n * p.dd - p.d * p.d

/-- A window is accepted (R35): the condition of the procedure, with e = D / 2^range. -/
def windowAccepted (p : PairSums) (rng : Nat) : Bool :=
  decide (32 ≤ p.n) && decide (256 * p.n * p.n * 4 ^ rng ≤ p.det)

/-- g_hat of R35 as a fraction. -/
def gHat (p : PairSums) (rng : Nat) : ℚ :=
  ((2 ^ rng * (p.n * p.dm - p.d * p.m) : Int) : ℚ) / (p.det : ℚ)

def oHat (p : PairSums) (rng : Nat) : ℚ :=
  ((p.m : ℚ) - gHat p rng * ((p.d : ℚ) / (2 ^ rng : ℚ))) / (p.n : ℚ)

/-- A real value in units of the register it goes to: rounded either way where it is not one (log entry 5). -/
def roundRat (s : State) (q : ℚ) : Int × State := roundFree s q.num q.den

/-- The average deviations of REF1 to REF7, in units of 2^-24, after a window (R284): the mean over the column's pairs with
|e| >= 32 of (m - o_hat) / (g_hat e) - 1, averaged with weight 1/64. A column without such a pair keeps its average. -/
def newDev (s : State) (p : PairSums) (rng : Nat) (pairs : List (Nat × Int × Int)) (k : Nat) (old : Int) : Int × State :=
  let mine := pairs.filter (fun x => x.1 == k && decide (32 * 2 ^ rng ≤ |x.2.1|))
  if mine.isEmpty then (old, s)
  else
    let g := gHat p rng
    let o := oHat p rng
    let ds : List ℚ := mine.map (fun x => ((x.2.2 : ℚ) - o) / (g * ((x.2.1 : ℚ) / (2 ^ rng : ℚ))) - 1)
    let mean := ds.foldl (· + ·) 0 / (mine.length : ℚ)
    roundRat s ((old : ℚ) + (mean * 2 ^ 24 - (old : ℚ)) / 64)

def newDevs (s : State) (p : PairSums) (rng : Nat) (pairs : List (Nat × Int × Int)) : Nat → List Int → List Int × State
  | _, [] => ([], s)
  | k, x :: xs =>
    let r := newDev s p rng pairs k x
    let t := newDevs r.2 p rng pairs (k + 1) xs
    (r.1 :: t.1, t.2)

/-- The spread in units of 2^-16: the largest magnitude of the averages (R284). -/
def spreadOf (devs : List Int) : Nat := (devs.map (fun d => d.natAbs)).foldl max 0 / 256

/-- The spread has reached REFRESH_TH (R285). -/
def spreadDue (s : State) (k : Nat) : Bool :=
  decide (max 1 (s.field pgWeight 0x064 16 16) ≤ spreadOf (s.array k).devs)

/-- With AUTO, a refresh that is due and stands in no queue is queued (R285). -/
def queueDue (s : State) (k : Nat) : State :=
  let a := s.array k
  if a.due && a.resState == .resident && (s.reg pgWeight 0x064).getLsbD 5
      && !s.weight.queue.any (fun q => 32 * q.pcore + q.array == k) then
    queueProg s { newProg k .refresh a.resPart a.tile false with dueNo := a.dueNo }
  else s

/-- A refresh falls due: REFRESH_DUE once, and its place among those that fell due (R280, R285). -/
def checkDue (s : State) (k : Nat) : State :=
  let a := s.array k
  if a.due || !spreadDue s k then s
  else
    let s1 := s.setArray k { a with due := true, dueNo := s.weight.dueCtr + 1 }
    queueDue (raise { s1 with weight := { s1.weight with dueCtr := s1.weight.dueCtr + 1 } } pgWeight 2) k

/-- Setting TRACK_LIM raises an array event to the integrity block (R35). -/
def noteLim (s : State) (k : Nat) (was lim : Bool) : State :=
  if lim && !was then { s with integ := { s.integ with arrayEvents := s.integ.arrayEvents ++ [k] } } else s

/-- Ends the window of an array: its corrections and spread, or nothing; the sums are cleared (R35, R49, R284). -/
def endWindow (s : State) (k : Nat) : State :=
  let a := s.array k
  let w := a.sums
  let p := pairSums w.pairs
  let s0 := s.setArray k { a with sums := TrackSums.zero }
  if !windowAccepted p a.range then s0
  else
    let sh := trackShift s (k / 32)
    let g := gHat p a.range
    let o := oHat p a.range
    let aNew : ℚ := (a.gain : ℚ) * (1 - (g - 1) / 2 ^ sh)
    let bNew : ℚ := (a.offs : ℚ) - o * 2 ^ (a.range + 6) / 2 ^ sh
    let lim : Bool := decide (aNew < 16384) || decide ((199997 * 32768 : ℚ) / 100000 < aNew) || decide (512 < |bNew|)
    let ra := roundRat s0 (max 16384 (min 65535 aNew))
    let rb := roundRat ra.2 (max (-512) (min 512 bNew))
    let rd := newDevs rb.2 p a.range w.pairs 1 a.devs
    let a1 := rd.2.array k
    let s1 := rd.2.setArray k { a1 with
      gain := ra.1.toNat, offs := rb.1, trackLim := lim, trackValid := true, tTrk := (w.temp % 4096).toNat, devs := rd.1 }
    checkDue (noteLim s1 k a.trackLim lim) k

/-- Tracking acts on an array: enabled for its core, and not held (R35, R48, R49). -/
def tracks (s : State) (k : Nat) : Bool := trackEn s (k / 32) && !(s.array k).trackHold

/-- Ends a window that holds TRACK_WIN evaluations or more, where tracking acts (R35). The manual does not say at which instant a
full window ends. DESIGN CHOICE (log entry 91): at TRACKING_WINDOW_END, or at the latest before the pairs of the next
evaluation are added; while TRACK_EN is 0 or TRACK_HOLD is 1 nothing is corrected, and the window keeps its sums. -/
def closeWindow (s : State) (k : Nat) : State :=
  if tracks s k && decide (trackWin s (k / 32) ≤ (s.array k).sums.evals) then endWindow s k else s

/-- The 7 pairs of one evaluation: a pair with |e| > 120 or |m| >= 127 is excluded (R35). -/
def refPairs (rng : Nat) (ps refs : List Int) : List (Nat × Int × Int) :=
  ((List.range 7).map (fun j => (j + 1, refD (j + 1) ps, refs.getD j 0))).filter
    (fun x => decide (|x.2.1| ≤ 120 * 2 ^ rng) && decide (|x.2.2| < 127))

/-- Accumulates the pairs of an evaluation of `count` window evaluations, where tracking acts (R35); an evaluation whose range
shift is no longer the array's belongs to the window that the change discarded. -/
def track (s : State) (k rng count : Nat) (pairs : List (Nat × Int × Int)) (temp : Int) : State :=
  let a := s.array k
  if !tracks s k || a.range != rng then s
  else
    s.setArray k { a with sums := { evals := a.sums.evals + count, pairs := a.sums.pairs ++ pairs, temp := temp } }

/-- The drive values of an evaluation: of a narrow one, or of the halves of a broad pass. -/
def Drive.hi : Drive → List Int
  | .narrow p => p
  | .broad hi _ => hi
def Drive.lo : Drive → List Int
  | .narrow p => p
  | .broad _ lo => lo

/-- What the array's half of a proof part delivered is held until the prover's half is complete (R265). -/
def keepPart (s : State) (k : Nat) (r : List Int × Bool × Int) : State :=
  { s with integ := { s.integ with proof := s.integ.proof.map (fun x =>
      if x.busy = some (k % 32) ∧ x.pcore = k / 32 then { x with result := some r } else x) } }

/-- What an evaluation leaves in its array when it ends, whoever wants its results (R29): counts, checks and pairs. The evaluations
of a calibration are neither checked nor tracked: DESIGN CHOICE (log entry 92). -/
def evaluated (s : State) (k : Nat) (e : Eval) (hi lo : Reading) : State :=
  let hiP := e.drive.hi
  let loP := e.drive.lo
  if e.fair then s
  else
    match e.kind with
    | .narrow =>
      track (closeWindow (checkHalf s k e hiP hi) k) k e.range 1 (refPairs e.range hiP (refCodes s k e hiP hi)) hi.temp
    | .broad =>
      track (closeWindow (checkHalf (checkHalf s k e hiP hi) k e loP lo) k) k e.range 2
        (refPairs e.range hiP (refCodes s k e hiP hi) ++ refPairs e.range loP (refCodes s k e loP lo)) lo.temp
    | .refCodes =>
      track (closeWindow s k) k e.range 1 (refPairs e.range hiP (refCodes s k e hiP hi)) hi.temp
    | .proof => checkHalf s k e hiP hi
    | .part =>
      let f := findings s k e hiP hi
      keepPart (checkHalf s k e hiP hi) k (deliveredCodes s k e hiP hi, !f.fail && !f.win, hi.temp)
    | .threshold => s
    | .calib => s

/-! ### Delivery (R26, R30, R31, R156, R158 to R162, R165) -/

/-- A result is delivered to vector registers from `n` on, or to a scalar register. -/
def deliverVs (s : State) (l n : Nat) (vs : List W2048) : State :=
  let sc := s.scribe l
  s.setScribe l (noteIn (vs.flatMap vBytes) { sc with arch := sc.arch.setVs n vs })
def deliverG (s : State) (l n : Nat) (w : W64) : State :=
  let sc := s.scribe l
  s.setScribe l (noteIn (leBytes 8 w.toNat) { sc with arch := sc.arch.setG n w })

/-- Array `k` is among the units that a replay of its partition computes twice (R255, R260). -/
def replayed (s : State) (p k : Nat) : Bool :=
  match s.job p with
  | none => false
  | some j => j.replaying && (match j.hold with
      | some h => h.units.contains (.array (k / 32) (k % 32))
      | none => false)

/-- Codes against the ideal ones of the tile recorded for the array, which the prover computes from CURRENT, within the band of a proof;
no array part runs above 105 degrees C (R265, R266). -/
def codesPass (s : State) (k rng : Nat) (ps codes : List Int) (temp : Int) : Bool :=
  let a := s.array k
  let ideal := idealCodes (fairCode s a.resPart (some a.tile)) ps rng
  match bandWidth a (arrayDrift s k) temp (some 3) with
  | none => true
  | some w => (List.range 512).all (fun j => decide (|codes.getD j 0 - ideal.getD j 0| ≤ w))

/-- The judgement of R266: every code within the band of the proof, and no inline check failed. -/
def proofPasses (s : State) (k : Nat) (e : Eval) (ps : List Int) (rd : Reading) : Bool :=
  let f := findings s k e ps rd
  !f.fail && !f.win && codesPass s k e.range ps (deliveredCodes s k e ps rd) rd.temp

/-- The proof of an APROOF fails: it is repeated with the same seed, its core's round coming next (R165, R267, R268). -/
def noteProof (s : State) (k : Nat) (e : Eval) (ok : Bool) : State :=
  if ok then s
  else
    let g := s.integ
    { s with integ := { g with
      retries := g.retries ++ [{ pcore := k / 32, array := k % 32, seed := e.seed, range := e.range }]
      proofNext := if g.proofNext.contains (k / 32) then g.proofNext else g.proofNext ++ [k / 32] } }

/-- Delivers the results of evaluation `e` of array `k`, as `s` was when it ended, in `t`. Served by a prover, or in the replay of a
step that implicates the array, the destination receives the ideal codes of the tile (R156, R255). -/
def deliver (s t : State) (k : Nat) (e : Eval) (hi lo : Reading) : State :=
  let p := (s.scribe e.lcore).part
  let ideal := e.fair || replayed s p k
  let tile := boundTile s e.lcore (k % 32)
  let code := fairCode s p tile
  let hiP := e.drive.hi
  let loP := e.drive.lo
  let codes (ps : List Int) (rd : Reading) : List W2048 :=
    packPair (if ideal then idealCodes code ps e.range else deliveredCodes s k e ps rd)
  let t0 := if e.fair && tileLost s p tile then
      failCheck t p (mkSuspect t e.lcore 7 (.hbmImage 0) .all e.index 0)
    else t
  match e.kind with
  | .narrow => deliverVs t0 e.lcore e.dest (codes hiP hi)
  | .broad => deliverVs t0 e.lcore e.dest (codes hiP hi ++ codes loP lo)
  | .threshold =>
    deliverVs t0 e.lcore e.dest [packV 1
      (if ideal then idealBits code hiP e.range e.thresh else deliveredBits s k e hiP e.thresh hi)]
  | .refCodes =>
    let a := s.array k
    deliverG t0 e.lcore e.dest (refWord
      (if ideal then (List.range 7).map (fun j => idealCode (refD (j + 1) hiP) e.range) else refCodes s k e hiP hi)
      a.trackValid a.trackLim)
  | .proof =>
    deliverVs (noteProof t0 k e (proofPasses s k e hiP hi)) e.lcore e.dest (codes hiP hi)
  | .calib => t0
  | .part => t0

/-- ARRAY_DELIVERY: the evaluation has ended and the array is free; the checks and the tracking of the array take place, and the
codes go to the destination unless they are no longer wanted (R26, R29). -/
def execArrayDelivery (key : Nat) (hi lo : Reading) (s : State) : Host.Outcome State Fault Refusal :=
  match (s.array key).eval with
  | none => .next s
  | some e =>
    let s1 := s.setArray key { s.array key with eval := none }
    let s2 := evaluated s1 key e hi lo
    .next (if e.wanted then deliver s1 s2 key e hi lo else s2)

/-- TRACKING_WINDOW_END (R35): a window with fewer evaluations than TRACK_WIN has not ended. -/
def execTrackingWindowEnd (key : Nat) (s : State) : Host.Outcome State Fault Refusal := .next (closeWindow s key)

end Sys2Proof.Machine
end

