-- ==== Sys2Proof/Machine/Converter.lean ====
section
/-! DEFINITION. The housekeeping converter (R393 to R409). -/

namespace Sys2Proof.Machine

def State.chan (s : State) (n : Nat) : Chan := Tbl.getD s.conv.chans n Chan.reset
def State.setChan (s : State) (n : Nat) (c : Chan) : State :=
  { s with conv := { s.conv with chans := Tbl.set s.conv.chans n c } }
def State.modulator (s : State) (m : Nat) : Modulator := Tbl.getD s.conv.mods m Modulator.reset
def State.setModulator (s : State) (m : Nat) (x : Modulator) : State :=
  { s with conv := { s.conv with mods := Tbl.set s.conv.mods m x } }

/-! ### Results -/

/-- round_half_even((raw - z) * G) (R404). -/
def corrected (c : Chan) (raw : Int) : Int :=
  let n := (raw - c.zero) * c.gainNum
  if c.gainDen < 0 then roundHalfEven (-n) c.gainDen.natAbs else roundHalfEven n c.gainDen.natAbs

/-- Whether num / den ≤ e^y for y = yn / yd, by the fixed-point exponential of `fExpE`. -/
def leExp (num den : Nat) (yn : Int) (yd : Nat) : Bool :=
  let y := yn * (log2eFix : Int) / yd
  let n := y / (2 ^ expW : Int)
  let f := (y % (2 ^ expW : Int)).toNat
  let m := expTaylor (f * ln2Fix / 2 ^ expW) 90 1 (2 ^ expW)
  if 0 ≤ n then decide (num * 2 ^ expW ≤ den * m * 2 ^ n.toNat)
  else decide (num * 2 ^ expW * 2 ^ (-n).toNat ≤ den * m)

/-- Whether the thermistor temperature of the ratio code / 2^23 is at least k / 16 degrees C (R398): R_t / 10,000 is
code / (2^23 - code), and falls as the temperature rises. -/
def hotterThan (code : Nat) (k : Int) : Bool :=
  decide (0 < 109260 + 25 * k)
    && leExp code (2 ^ 23 - code) (1374000 * (10000 - 25 * k)) ((109260 + 25 * k) * 119260).toNat

/-- The greatest k from -4,096 to 4,095 for which the temperature is at least k / 16 degrees C. -/
def thermistor (code : Nat) : Int :=
  [4096, 2048, 1024, 512, 256, 128, 64, 32, 16, 8, 4, 2, 1].foldl
    (fun k d => if hotterThan code (k + d) then k + d else k) (-4096)

/-- A ratio from 0.01 to 0.99 (R398). -/
def ratioOk (code : Int) : Bool := decide (2 ^ 23 ≤ 100 * code) && decide (100 * code ≤ 99 * 2 ^ 23)

/-- Temperature of PC0 or PC1 in 1/16 degree C; outside the open interval from ratio 0 to ratio 1 the formula of R398 has
no value (log entry 3), and its rounding is not stated (log entry 5). -/
def coolantTemp (s : State) (code : Int) : Int :=
  if 0 < code ∧ code < 2 ^ 23 then
    thermistor code.toNat + (if Config.freeRoundUp s.freeCtr then 1 else 0)
  else (s.freeNat 8192 : Int) - 4096

/-- The number that a result is compared with (R403). -/
def limitValue (s : State) (n : Nat) (code : Int) : Int :=
  if n < 2 then coolantTemp s code else if n < 16 then code / 256 else code

def limLow (s : State) (n : Nat) : Int :=
  let w := (s.reg pgConv (0x10C + 16 * n)).extractLsb' 0 16
  if n < 16 then w.toInt else w.toNat
def limHigh (s : State) (n : Nat) : Int :=
  let w := (s.reg pgConv (0x10C + 16 * n)).extractLsb' 16 16
  if n < 16 then w.toInt else w.toNat

/-- A code that the 24-bit result register of a precision channel, or the unsigned result of a fast one, cannot hold has no
stated value (log entry 3). -/
def fitCode (s : State) (n : Nat) (code : Int) : Int :=
  if n < 16 then
    if -(2 ^ 23) ≤ code ∧ code < 2 ^ 23 then code else (s.freeNat (2 ^ 24) : Int) - 2 ^ 23
  else if 0 ≤ code ∧ code < 2 ^ 20 then code else (s.freeNat (2 ^ 20) : Int)

/-- Writes one result of a channel with its stamp, compares it with the limits and, for PC0 and PC1, reports the coolant
temperature (R398, R401, R403). -/
def writeResult (s : State) (n : Nat) (code0 : Int) (off stroke : Nat) : State :=
  let code := fitCode s n code0
  let c := s.chan n
  let v := limitValue s n code
  let lo := decide (v < limLow s n)
  let hi := decide (limHigh s n < v)
  let c' := { c with code := code, valid := true, limLo := lo, limHi := hi, calHold := false,
                     stampOff := off, stampStroke := stroke }
  let t : Nat := (clampInt v 0 4095).toNat
  let s1 := s.nextFree.setChan n c'
  let s2 := if n = 0 then { s1 with conv := { s1.conv with coolIn := t, inValid := ratioOk code } }
    else if n = 1 then { s1 with conv := { s1.conv with coolOut := t, outValid := ratioOk code } } else s1
  if (lo && !c.limLo) || (hi && !c.limHi) then raise s2 pgConv 1 else s2

/-! ### Modulators and groups (R397, R402, R407) -/

/-- The stamp of a window that begins now: offset and stroke number (R401). -/
def stampNow (s : State) : Nat × Nat :=
  if s.stroke.everLocked then (s.stroke.count, s.stroke.number % 1024) else (s.stroke.refTicks, 0)

/-- A channel that a calibration order has taken out of its sequence and groups (R405). -/
def calibrating (s : State) (n : Nat) : Bool := (s.conv.cal.busy || s.conv.cal.zero.isSome) && s.conv.cal.chan == n

/-- The channels a modulator serves in the free-running sequence. -/
def servedBy (s : State) (m : Nat) : List Nat :=
  (List.range 16).filter (fun n => n % 4 == m && (s.reg pgConv 0x044).getLsbD n && !calibrating s n)

/-- The channel a modulator visits after channel `n`: ascending, then from the start (R397). -/
def nextServed (s : State) (m n : Nat) : Option Nat :=
  match (servedBy s m).filter (fun k => decide (n < k)) with
  | k :: _ => some k
  | [] => (servedBy s m).head?

/-- Begins a visit now. -/
def startVisit (s : State) (m : Nat) (x : Modulator) (chan : Option Nat) (group : Option Nat) : State :=
  s.setModulator m { x with chan := chan, group := group, off := (stampNow s).1, stroke := (stampNow s).2 }

/-- An idle modulator takes up the sequence. -/
def wake (s : State) (m : Nat) : State :=
  let x := s.modulator m
  if s.conv.ready && x.chan.isNone then startVisit s m x (servedBy s m).head? none else s

/-- What a modulator does when a visit ends: a queued channel of the other group, the abandoned visit, or the next enabled
channel (R402, R407). -/
def nextVisit (s : State) (m n : Nat) : State :=
  let x := s.modulator m
  match x.queued with
  | some (c, g) => startVisit s m { x with queued := none } (some c) (some g)
  | none =>
    match x.resume with
    | some c => startVisit s m { x with resume := none } (if calibrating s c then nextServed s m n else some c) none
    | none => startVisit s m x (nextServed s m n) none

/-- Takes a channel off the running group; GROUP_DONE with the last (R402). -/
def groupGot (s : State) (g n : Nat) : State :=
  let left := Tbl.getD s.conv.groups g []
  if left.contains n then
    let rest := left.filter (· != n)
    let s1 := { s with conv := { s.conv with groups := Tbl.set s.conv.groups g rest } }
    if rest.isEmpty then raise s1 pgConv 2 else s1
  else s

/-- PRECISION_CONVERSION_DONE (R397): the visit of a modulator ends and writes one result. -/
def execPrecisionConversionDone (modulator : Nat) (raw : Int) (s : State) : Host.Outcome State Fault Refusal :=
  if !s.conv.ready then .next s
  else
    let x := s.modulator modulator
    match x.chan with
    | none => .next (wake s modulator)
    | some n =>
      let s1 := writeResult s n (corrected (s.chan n) raw) x.off x.stroke
      let s2 := match x.group with
        | some g => groupGot s1 g n
        | none => s1
      .next (nextVisit s2 modulator n)

/-- REF_EN_WRITE (R395): writes of 0 are ignored once step 3 has completed. -/
def execRefEnWrite (src : Nat) (data : W32) (s : State) : Host.Outcome State Fault Refusal :=
  if !canWrite s src pgConv then .next s
  else if data.getLsbD 0 then .next { s with conv := { s.conv with en := true } }
  else if s.bring.doneMap.testBit 3 then .next s
  else .next { s with conv := { s.conv with en := false, ready := false } }

/-- REF_READY (R395): 10 ms after EN; the modulators begin their visits. -/
def refReady (s : State) : State :=
  if s.conv.en && !s.conv.ready then
    let s1 := raise { s with conv := { s.conv with ready := true } } pgConv 0
    (List.range 4).foldl wake s1
  else s
def execRefReady (s : State) : Host.Outcome State Fault Refusal := .next (refReady s)

/-- 2^k samples of a fast result; k from 1 to 8 (R399). -/
def avgSamples (s : State) (n : Nat) : Nat := 2 ^ max 1 (min 8 (s.field pgConv (0x100 + 16 * n) 8 4))
def fastShift (s : State) (n : Nat) : Nat := min 8 (s.field pgConv (0x100 + 16 * n) 12 4)

/-- Whether a running group still waits for a fast channel: free-running sampling pauses (R402). -/
def groupSampling (s : State) : List Nat :=
  ([0, 1].flatMap (fun g => Tbl.getD s.conv.groups g [])).filter (fun n => decide (16 ≤ n))

/-- SAR_SAMPLE (R399, R400): one sample of fast channel `chan` (0 to 3). FC2 is sampled for the power average even where it
is not enabled; the first two samples after a change of region are discarded. -/
def execSarSample (chan : Nat) (raw : Int) (s : State) : Host.Outcome State Fault Refusal :=
  let n := 16 + chan
  let grp := groupSampling s
  let listed := if grp.isEmpty then (s.reg pgConv 0x044).getLsbD n else grp.contains n
  if 3 < chan ∨ calibrating s n ∨ (!listed ∧ chan ≠ 2) then .next s
  else if !s.conv.ready then .next { s with conv := { s.conv with early := sat 16 (s.conv.early + 1) } }
  else if chan = 0 ∧ 0 < s.conv.skipA then .next { s with conv := { s.conv with skipA := s.conv.skipA - 1 } }
  else if chan = 1 ∧ 0 < s.conv.skipB then .next { s with conv := { s.conv with skipB := s.conv.skipB - 1 } }
  else
    let c := s.chan n
    let v := corrected c raw
    let droop := decide (chan < 2) && decide (v < (s.field pgConv 0x064 6 12 : Int))
    let s1 := { s with conv := { s.conv with
      droop := if droop then sat 14 (s.conv.droop + 1) else s.conv.droop,
      powSum := if chan = 2 then s.conv.powSum + v else s.conv.powSum,
      powCnt := if chan = 2 then s.conv.powCnt + 1 else s.conv.powCnt } }
    let s2 := if droop then raise s1 pgConv 7 else s1
    if !listed then .next s2
    else
      let st := if c.count = 0 then stampNow s else (c.startOff, c.startStroke)
      let sum := c.sum + v
      let cnt := c.count + 1
      if cnt < avgSamples s n then
        .next (s2.setChan n { s2.chan n with sum := sum, count := cnt, startOff := st.1, startStroke := st.2 })
      else
        let s3 := writeResult (s2.setChan n { s2.chan n with sum := 0, count := 0 }) n
                    (sum / 2 ^ fastShift s n) st.1 st.2
        .next ([0, 1].foldl (fun t g => groupGot t g n) s3)

/-- The channels a group names, without those a calibration holds (R402, R407). -/
def groupChans (s : State) (g : Nat) : List Nat :=
  (List.range 20).filter (fun n => (s.reg pgConv (0x048 + 4 * g)).getLsbD n)

/-- Starts one channel of a group at the boundary. -/
def groupStart (g : Nat) (s : State) (n : Nat) : State :=
  if calibrating s n then s.setChan n { s.chan n with calHold := true }
  else if 16 ≤ n then s.setChan n { s.chan n with sum := 0, count := 0 }
  else
    let m := n % 4
    let x := s.modulator m
    match x.group with
    | some _ => s.setModulator m { x with queued := some (n, g) }
    | none => startVisit s m { x with resume := x.chan } (some n) (some g)

/-- GROUP_DUE (R402): at a boundary whose stroke number is a multiple of the group's interval. A group still converting
skips it and raises GROUP_OVR. -/
def execGroupDue (group : Nat) (s : State) : Host.Outcome State Fault Refusal :=
  let chans := groupChans s group
  let interval := s.field pgConv (0x048 + 4 * group) 20 8 + 1
  if 1 < group ∨ chans.isEmpty ∨ !strokesRun s ∨ s.stroke.number % interval ≠ 0 then .next s
  else if !(Tbl.getD s.conv.groups group []).isEmpty then .next (raise s pgConv 3)
  else
    let live := chans.filter (fun n => !calibrating s n)
    let early := if s.conv.ready then s.conv.early else sat 16 (s.conv.early + live.length)
    let s1 := { s with conv := { s.conv with groups := Tbl.set s.conv.groups group live, early := early } }
    let s2 := chans.foldl (groupStart group) s1
    .next (if live.isEmpty then raise s2 pgConv 2 else s2)

/-! ### Calibration (R404, R405) -/

/-- The order's channel leaves its sequence and its groups (R405): a visit of it is given up, a group that converts no longer waits for it,
and consumers keep its last result. -/
def takeOut (s : State) (n : Nat) : State :=
  let s1 := s.setChan n { s.chan n with calHold := true, sum := 0, count := 0 }
  let m := n % 4
  let x := s1.modulator m
  let s2 :=
    if n < 16 then
      if x.chan = some n then nextVisit s1 m n
      else if x.queued.map (·.1) = some n then s1.setModulator m { x with queued := none } else s1
    else s1
  [0, 1].foldl (fun t g => groupGot t g n) s2

/-- Ends an order without storing anything. -/
def calFail (s : State) (why : Nat) : State :=
  let k := s.conv.cal
  let s1 := s.setChan k.chan { s.chan k.chan with calHold := false }
  raise { s1 with conv := { s1.conv with
    cal := { k with busy := false, zero := none, pass := false, why := why } } } pgConv 5

/-- CAL_ZERO (R404). PC12 to PC15 are refused; an order while a measurement runs is ignored (log entry 26). -/
def execCalZero (src chan : Nat) (s : State) : Host.Outcome State Fault Refusal :=
  .next (armedWrite s src pgConv 0x054 (BitVec.ofNat 32 (chan + 32 + 2 ^ 31)) (fun t =>
    if t.conv.cal.busy ∨ 19 < chan then t
    else
      let k : ConvCal := { t.conv.cal with chan := chan, op := 1, zero := none, why := 0 }
      let old := t.conv.cal
      let t0 := if old.zero.isSome then t.setChan old.chan { t.chan old.chan with calHold := false } else t
      if 12 ≤ chan ∧ chan < 16 then calFail { t0 with conv := { t0.conv with cal := k } } 3
      else takeOut { t0 with conv := { t0.conv with cal := { k with busy := true } } } chan))

/-- CAL_FULL (R404): needs the accepted zero of the channel. -/
def execCalFull (src chan : Nat) (s : State) : Host.Outcome State Fault Refusal :=
  .next (armedWrite s src pgConv 0x054 (BitVec.ofNat 32 (chan + 64 + 2 ^ 31)) (fun t =>
    let k := t.conv.cal
    if k.busy ∨ 19 < chan then t
    else if 12 ≤ chan ∧ chan < 16 then calFail { t with conv := { t.conv with cal := { k with chan := chan } } } 3
    else if k.zero.isNone ∨ k.chan ≠ chan then calFail { t with conv := { t.conv with cal := { k with chan := chan } } } 5
    else { t with conv := { t.conv with cal := { k with busy := true, op := 2 } } }))

/-- CAL_ABANDON (R404): nothing is stored. -/
def execCalAbandon (src chan : Nat) (s : State) : Host.Outcome State Fault Refusal :=
  .next (armedWrite s src pgConv 0x054 (BitVec.ofNat 32 (chan + 96 + 2 ^ 31)) (fun t =>
    let k := t.conv.cal
    let t1 := t.setChan k.chan { t.chan k.chan with calHold := false }
    { t1 with conv := { t1.conv with cal := { k with busy := false, zero := none } } }))

/-- The ideal code of a channel's calibration point, as a fraction (R393, R404): 100 kOhm over 110 kOhm for PC0 and PC1,
three quarters of full scale for every other channel. -/
def idealPoint (n : Nat) : Int × Int := if n < 2 then (10 * 2 ^ 23, 11) else if n < 16 then (6291456, 1) else (3072, 1)

/-- Two measurements agree within 4 codes, precision codes shifted right by 8 (R404). -/
def agree (n : Nat) (a b : Int) : Bool :=
  if n < 16 then decide ((a / 256 - b / 256).natAbs ≤ 4) else decide ((a - b).natAbs ≤ 4)

/-- CONV_CAL_MEASURE_DONE (R404, R405): the two measurements of an order are complete. Which value between the two is the
accepted one is not stated (log entry 3). -/
def execConvCalMeasureDone (first second : Int) (s : State) : Host.Outcome State Fault Refusal :=
  let k := s.conv.cal
  if !k.busy then .next s
  else if !agree k.chan first second then .next (calFail s 1)
  else
    let v := min first second + (s.freeNat ((max first second - min first second).toNat + 1) : Int)
    let s1 := s.nextFree
    match k.op with
    | 1 => .next { s1 with conv := { s1.conv with cal := { k with busy := false, zero := some v } } }
    | _ =>
      let z := k.zero.getD 0
      let t := idealPoint k.chan
      let d := t.2 * (v - z)
      if d = 0 ∨ d.natAbs < 20 * (t.1 - d).natAbs then .next (calFail s1 4)
      else
        let c := { s1.chan k.chan with zero := z, gainNum := t.1, gainDen := d, sysCal := true, recOk := true,
                                       calHold := false }
        let s2 := s1.setChan k.chan c
        .next (raise { s2 with conv := { s2.conv with
          cal := { k with busy := false, zero := none, pass := true, why := 0 } } } pgConv 4)

/-- CAL_FULL_TIMEOUT (R404): FULL does not follow within 60 s. -/
def execCalFullTimeout (s : State) : Host.Outcome State Fault Refusal :=
  .next (if s.conv.cal.zero.isSome && !s.conv.cal.busy then calFail s 2 else s)

/-- Calibration records whose check word fails at bring-up: unit gain, zero offset, no system calibration, and CAL_INVALID (R405). They
are read when step 3 begins to convert (log entry 108). -/
def badCalRecords (s : State) (bad : List Nat) : State :=
  let s1 := bad.foldl (fun t n => t.setChan n { t.chan n with zero := 0, gainNum := 1, gainDen := 1, sysCal := false, recOk := false }) s
  if bad.isEmpty then s1 else raise s1 pgConv 8

/-! ### Self-check (R406) -/

/-- The self-check of internal channel 12 + turn: its corrected code, and for PC14 the temperature it converts to, in
1/16 degree C. -/
def selfCheckOk (s : State) (turn : Nat) (code temp : Int) : Bool :=
  match turn with
  | 0 => decide ((code - 4194304).natAbs * 1000 ≤ 2 * 4194304)
  | 1 => decide (171 * 2 ^ 23 ≤ 250 * code) && decide (250 * code ≤ 189 * 2 ^ 23)
  | 2 => decide ((temp - (Tbl.getD s.therm.sensors 17 Sensor.reset).reading).natAbs ≤ 160)
  | _ => decide ((code / 256).natAbs ≤ 8)

/-- SELF_CHECK (R406): never during a group conversion on the channel's modulator; enabled always in SEALED. -/
def execSelfCheck (raw temp : Int) (s : State) : Host.Outcome State Fault Refusal :=
  let turn := s.conv.selfTurn
  let on := (s.reg pgConv 0x060).getLsbD 8 || s.sec.lcState == 1
  if !on ∨ !s.conv.ready ∨ (s.modulator turn).group.isSome then .next s
  else
    let ok := selfCheckOk s turn (corrected (s.chan (12 + turn)) raw) temp
    let s1 := { s with conv := { s.conv with
      selfTurn := (turn + 1) % 4,
      selfFails := if ok then s.conv.selfFails else sat 8 (s.conv.selfFails + 1),
      refSuspect := if turn = 0 then !ok else s.conv.refSuspect } }
    .next (if ok then s1 else raise s1 pgConv 6)

end Sys2Proof.Machine
end

