-- ==== Sys2Proof/Machine/Reset.lean ====
section
/-! DEFINITION. What the resets of the device take with them (R341, R423), the stop of every service (R351, R389), and the
end of a bring-up step (R348, R349), which a shut-down also orders. -/

namespace Sys2Proof.Machine

/-- An evaluation that nobody wants any more: it runs to its end, and its results are discarded (R29). -/
def Eval.unwanted (e : Eval) : Eval := { e with wanted := false }

/-- An array whose work is lost (R341: contents, records, trims and write counts stay); an evaluation under way runs on (R29). -/
def ArrayUnit.quiet (a : ArrayUnit) : ArrayUnit :=
  { a with eval := a.eval.map Eval.unwanted, sums := TrackSums.zero, log := CheckLog.clear }

/-- Every service of the device is lost as on a warm device reset: requests, plans, adapters, partitions, work in flight
(R341, R351, R389). No terminator is written. -/
def loseService (s : State) : State :=
  { s with
    arrays := Tbl.mapVal (fun _ a => a.quiet) s.arrays
    remap := Tbl.mapVal (fun _ r => { r with next := none, part := 0 }) s.remap
    slotsLig := [], vcBuf := [], scribes := [], slots := [], handles := [], parts := [], partOrders := [],
    weight := { s.weight with busy := none, queue := [], shadows := [] }
    cal := { s.cal with busy := false, left := [] }
    integ := { s.integ with proof := none, proofNext := [], provers := [], checks := [], taints := [], sampled := [] }
    stroke := { s.stroke with state := .stopped, pend := none, stopPend := false } }

/-- Image slots in HBM that a warm reset keeps, by partition: the CURRENT of each (R341, R353). -/
def retainedImages (s : State) : Tbl Image :=
  s.parts.filterMap (fun (p, x) => x.curImage.map (fun i => (p, i)))

/-- Ends the running bring-up step with a code and a detail (R349): the step is completed with OK, SKIPPED or DEGRADED,
and STEP_DONE or STEP_FAIL is raised (R348). -/
def bringEnd (s : State) (code detail ms : Nat) : State :=
  let b := s.bring
  let ok := code = 1 ∨ code = 2 ∨ code = 3
  let b' := { b with busy := false, work := none, code := code, detail := detail % 2 ^ 32, elapsed := sat 24 ms,
                     lastDone := if ok then b.step else b.lastDone,
                     doneMap := if ok then b.doneMap ||| 2 ^ b.step else b.doneMap }
  raise { s with bring := b' } pgBring (if ok then 0 else 1)

/-- A shut-down (R389): everything but the always-on domain, the sensors and the sideband stops. Sensor and reading of the
first cause are kept; `off` switches the regulators off (R434). A running bring-up step fails (R362). -/
def shutDown (s : State) (sensor : Nat) (temp : Int) (off : Bool) : State :=
  let s1 := if s.bring.busy then bringEnd s 6 0xFFFF0001 s.bring.elapsed else s
  let s2 := loseService s1
  { s2 with
    shut := true
    arrays := if off then Tbl.mapVal (fun _ a => { a with eval := none }) s2.arrays else s2.arrays
    hbm := (List.range 8).map (fun k => (k, { s2.stack k with selfRefresh := true }))
    pins := { s2.pins with faultN := false, health := false, linkIdle := true, pcieUp := false,
                           regulators := s2.pins.regulators && !off }
    bring := { s2.bring with hbmOk := false, meshOk := false, arrayOk := false, retained := [] }
    therm := if s.shut then s2.therm
             else { s2.therm with shutTemp := (clampInt temp 0 4095).toNat, shutSensor := sensor, shutValid := true } }

/-- An array through a device reset: volatile registers at reset, what the non-volatile block and the cells hold stays
(R43, R278, R341); an evaluation under way runs to its end (R29). -/
def ArrayUnit.afterReset (a : ArrayUnit) : ArrayUnit :=
  { ArrayUnit.reset with
    resState := a.resState, edition := a.edition, tile := a.tile, resPart := a.resPart, writeCnt := a.writeCnt,
    recOk := a.recOk, trimStored := a.trimStored, cells := a.cells, due := a.due, dueNo := a.dueNo,
    eval := a.eval.map Eval.unwanted
    trims := if a.nextTrims.isEmpty then a.trims else a.nextTrims }

/-- A physical core through a cold device reset: the temperature of its last accepted calibration stands in the non-volatile
block (R43). -/
def PCore.afterCold (c : PCore) : PCore := { PCore.reset with tCalRec := c.tCalRec }

/-- A physical core through a warm device reset: its state and number stay, and what the retained copy holds of its router
(R341, R352). -/
def PCore.afterWarm (c : PCore) : PCore :=
  { PCore.reset with
    kind := c.kind, lcore := c.lcore, part := c.part, takeFrom := c.takeFrom, takeWhy := c.takeWhy, tCalRec := c.tCalRec
    rtrKept := c.rtrUp || c.rtrKept, portKept := if c.rtrUp then c.portUp else c.portKept
    faultKept := c.rtrFault || c.faultKept }

/-- The security block through a device reset: the fuses and the firmware slots stay; an unlock ends (R377). -/
def Sec.afterReset (x : Sec) : Sec :=
  { Sec.reset with
    lcState := x.lcState, eraseDone := x.eraseDone, eraseFail := x.eraseFail, erasing := x.erasing,
    unlockCtr := x.unlockCtr, fwSvn := x.fwSvn, keySvn := x.keySvn, revoked := x.revoked, serial := x.serial,
    ttid := x.ttid, slotA := x.slotA, slotB := x.slotB, mcOut := x.mcOut }

/-- The temperature block through a warm reset: failed sensors, blind hubs, SHUT_LAST and the latched leak stay (R383, R389, R436). -/
def Therm.afterWarm (x : Therm) : Therm :=
  { Therm.reset with
    sensors := Tbl.mapVal (fun _ v => { v with shut := false }) x.sensors
    hubs := Tbl.mapVal (fun _ h => { Hub.reset with blind := h.blind, thDiv := if h.blind then 8 else 16 }) x.hubs
    shutTemp := x.shutTemp, shutSensor := x.shutSensor, shutValid := x.shutValid, failedCnt := x.failedCnt,
    leakExt := x.leakExt, leakInt := x.leakInt, leakLatched := x.leakLatched, edges := x.edges }

/-- Calibration of a converter channel stays in the non-volatile block (R405). -/
def Chan.afterReset (c : Chan) : Chan :=
  { Chan.reset with zero := c.zero, gainNum := c.gainNum, gainDen := c.gainDen, sysCal := c.sysCal, recOk := c.recOk }

/-- What every device reset leaves: the reset state with what the non-volatile block, the fuses and the flash hold, and
with what lies outside the block: waiting commands, messages sent, host memory (R341, R423). -/
def coldReset (s : State) : State :=
  { State.reset with
    pending := s.pending, freeCtr := s.freeCtr, msgs := s.msgs, hostOut := s.hostOut
    fuseBad := s.fuseBad, remapRec := s.remapRec
    arrays := Tbl.mapVal (fun _ a => a.afterReset) s.arrays
    pcores := Tbl.mapVal (fun _ c => c.afterCold) s.pcores
    weight := { Weight.reset with dueCtr := s.weight.dueCtr }
    sec := s.sec.afterReset
    conv := { Conv.reset with chans := Tbl.mapVal (fun _ c => c.afterReset) s.conv.chans }
    pins := { Pins.reset with perstN := s.pins.perstN, pcieUp := s.pins.perstN } }

/-- No route-table update, fence or remap change in progress (R356). -/
def meshQuiet (s : State) : Bool :=
  !s.mesh.rtPending && !s.mesh.fenceBusy && s.remap.all (fun (_, r) => r.next.isNone)
  && s.pcores.all (fun (_, c) => c.kind != .taking)

/-- No residency record PROGRAMMING and no write slot busy (R356). -/
def arraysQuiet (s : State) : Bool :=
  s.arrays.all (fun (_, a) => a.resState != .programming) && s.weight.queue.all (fun q => !q.started)

/-- A cold path is in steps 5 to 12 (R362). -/
def coldBringRunning (s : State) : Bool :=
  !s.bring.warm && decide (4 ≤ s.bring.lastDone) && decide (s.bring.lastDone < 12)

/-- A warm device reset (R341): as a cold one, but core states, remap, spare pool, image slots, markers' data and the
counters that run since cold reset stay. -/
def warmReset (s : State) : State :=
  { coldReset s with
    pcores := Tbl.mapVal (fun _ c => c.afterWarm) s.pcores
    remap := Tbl.mapVal (fun _ r => { r with next := none, part := 0 }) s.remap
    mesh := { Mesh.reset with
      spareTotal := s.mesh.spareTotal, good := s.mesh.good, rtUpdates := s.mesh.rtUpdates
      routes := s.mesh.routes, edgeDown := s.mesh.edgeDown }
    serve := { Serve.reset with intakes := s.serve.intakes }
    stroke := { Stroke.reset with slips := s.stroke.slips }
    weight := { Weight.reset with dueCtr := s.weight.dueCtr, refreshDone := s.weight.refreshDone }
    cal := { Cal.reset with passed := s.cal.passed, failed := s.cal.failed }
    link := { Link.reset with rtUpdates := s.link.rtUpdates }
    integ := { Integ.reset with taintSeq := s.integ.taintSeq }
    regions := Tbl.mapVal (fun _ r => { Region.reset with count := r.count }) s.regions
    hbm := Tbl.mapVal (fun _ k => { Stack.reset with ce := k.ce, ue := k.ue, retired := k.retired, gone := k.gone, selfRefresh := true })
             s.hbm
    clock := { Clock.reset with dom := Tbl.mapVal (fun _ d => { Domain.reset with losses := d.losses }) s.clock.dom }
    therm := s.therm.afterWarm
    sec := { s.sec.afterReset with seq := s.sec.seq, preferB := s.sec.preferB }
    bring := { Bring.reset with
      retained := if s.shut then [] else
        (retainedImages s).foldl (fun t pi => Tbl.set t pi.1 pi.2) s.bring.retained
      bistAge := s.bring.bistAge, warm := true
      keepHbm := !s.shut && !s.bring.lockStop && (s.bring.doneMap.testBit 7 || s.bring.keepHbm)
      keepMesh := !s.shut && !s.bring.lockStop && meshQuiet s && !coldBringRunning s
                  && (s.bring.doneMap.testBit 9 || s.bring.keepMesh)
      keepArray := !s.shut && !s.bring.lockStop && arraysQuiet s && !coldBringRunning s
                  && (s.bring.doneMap.testBit 12 || s.bring.keepArray) } }

end Sys2Proof.Machine
end

