-- ==== Sys2Proof/WellFormed.lean ====
section
/-! DEFINITION. Well-formed commands: every operand inside the range that the manual gives it. `exec` is total and answers on any
command; a sender that follows the manual sends well-formed ones only. -/

namespace Sys2Proof

/-! ### Ranges of operands -/

/-- A source of register accesses: the PF 0, the VF of partition p as p + 1, the sideband 33, the debug connector 34 (R421). -/
def sourceOk (src : Nat) : Bool := decide (src ≤ 34)
/-- Partitions (R11). -/
def partOk (p : Nat) : Bool := decide (p < 32)
/-- Logical cores (R115). -/
def lcoreOk (l : Nat) : Bool := decide (l < 1024)
/-- Physical cores (R10). -/
def pcoreOk (c : Nat) : Bool := decide (c < 1152)
/-- Arrays: 32 c + n for array n of physical core c (R10). -/
def arrayOk (k : Nat) : Bool := decide (k < 36864)
/-- Router ports: north, south, east, west, local (R104). -/
def routerPortOk (p : Nat) : Bool := decide (p < 5)
/-- Link ports (R299). -/
def linkPortOk (p : Nat) : Bool := decide (p < 12)
/-- Clock regions and sensor hubs of the regions (R12). -/
def regionOk (r : Nat) : Bool := decide (r < 8)
/-- Memory stacks (R425). -/
def stackOk (k : Nat) : Bool := decide (k < 8)
/-- Request slots (R227). -/
def slotOk (n : Nat) : Bool := decide (n < 65536)
/-- Prefix handles (R237). -/
def handleOk (h : Nat) : Bool := decide (h < 16384)
/-- Converter channels (R393). -/
def chanOk (c : Nat) : Bool := decide (c < 20)
/-- Functions: the PF 0, the VF of partition p as p + 1 (R328). -/
def funcOk (f : Nat) : Bool := decide (f ≤ 32)
/-- Vectors of a function (R338, R340). -/
def vectorOk (v : Nat) : Bool := decide (v < 64)
/-- A page number: 4-KiB pages of the 64-MiB BAR0 (R419). -/
def pageOk (n : Nat) : Bool := decide (n < 0x4000)
/-- An access that lies in its page, of one to eight bytes; those that are not 4 or 8 bytes and aligned are captured (R416, R419). -/
def accessOk (off size : Nat) : Bool := decide (0 < size) && decide (size ≤ 8) && decide (off + size ≤ 4096)
/-- A fast channel of the converter (R393). -/
def fastOk (c : Nat) : Bool := decide (c < 4)

/-! ### Compound operands -/

def HwCheck.wf : HwCheck → Bool
  | .ok => true
  | .residue => true
  | .sramCorrected a => decide (a < 0x180000)
  | .sramUncorrectable a => decide (a < 0x180000)
  | .hbmCorrected k _ => stackOk k
  | .hbmUncorrectable k _ => stackOk k
  | .storeUncorrectable => true
  | .blotterUncorrectable none => true
  | .blotterUncorrectable (some n) => slotOk n
  | .dma => true

def Issue.wf (i : Issue) : Bool := lcoreOk i.lcore && i.hw.wf && i.hwOther.wf

/-- A reading covers the 512 data columns, the seven reference columns and the two check groups (R26, R33, R38). -/
def Reading.wf (r : Reading) : Bool :=
  r.eps.length == 512 && r.epsRef.length == 7 && r.rho.length == 2 && r.charge.length == 512 && r.conv.length == 512
    && r.chk.length == 2 && r.dup.length == 2

/-- Edge ports: the 8 HBM stacks, the 12 link ports, the PCIe and service blocks (R12). -/
def numEdges : Nat := 21

/-- The virtual channels that carry a type of flit (R104, R105); the table names none for type 7. -/
def vcFits (typ vc : Nat) : Bool :=
  match typ with
  | 0 => vc == 2
  | 1 => vc == 2
  | 2 => vc == 3
  | 3 => vc == 1
  | 4 => vc == 2
  | 5 => vc == 0 || vc == 3
  | 6 => vc == 0
  | _ => decide (vc < 4)

/-- A flit that a router of the mesh can send: reserved types are none (R104). -/
def Flit.wf (f : Flit) : Bool :=
  decide (f.typ < 8) && vcFits f.typ f.vc && (pcoreOk f.dest || f.dest == 0x7FF) && (pcoreOk f.src || f.src == 0x7FF)
  && decide (f.tag < 65536) && decide (f.ncontrib < 1024) && decide (f.stepTag < 4)
  && (f.typ != 3 || decide (1 ≤ f.ncontrib) && (!f.lfmt || f.lchk == 0#32)) && decide (f.edge < numEdges)

def RouteEntry.wf (r : RouteEntry) : Bool := pcoreOk r.router && decide (r.dest < 1152 + numEdges) && decide (r.port < 5)

def bytesOk (n : Nat) (d : Option (List Byte)) : Bool :=
  match d with
  | none => true
  | some bs => bs.length == n

def IntakeRead.wf (r : IntakeRead) : Bool :=
  partOk r.part && r.descs.all (bytesOk 256) && r.consumed.all (fun x => slotOk x.1) && r.prompts.all (fun x => slotOk x.1)

def BringWork.wf : BringWork → Bool
  | .selfTest _ _ _ _ _ _ _ => true
  | .fuses _ => true
  | .converter codes badRec => codes.all (fun x => chanOk x.1) && badRec.all chanOk
  | .plls times => times.all (fun x => decide (x.1 < 32))
  | .boot => true
  | .hbm trained => decide (trained.length ≤ 8)
  | .bist bad => bad.all pcoreOk
  | .mesh bad down _ routes => bad.all pcoreOk && down.all (fun x => pcoreOk x.1 && routerPortOk x.2) && routes.all RouteEntry.wf
  | .broadcast rounds _ => rounds.all (fun r => r.all (fun x => pcoreOk x.1))
  | .trims bad _ => bad.all arrayOk
  | .verify bad badRec => bad.all arrayOk && badRec.all arrayOk
  | .none => true

/-- A plan index of the sender (R129, R175). -/
def RendezvousReq.wf (r : RendezvousReq) : Bool := decide (r.peer < 1024)

def Item.wf : Item → Bool
  | .record slot _ _ _ => slotOk slot
  | .kv slot _ pos _ _ _ => slotOk slot && decide (pos < 64)
  | .state slot _ _ => slotOk slot
  | .spec slot _ _ => slotOk slot

/-- A barrier message carries the low 16 bits of its sender's stroke number (R79). -/
def StatusMsg.wf (m : StatusMsg) : Bool := m.holds.all slotOk && decide (m.number < 65536)
def DecisionMsg.wf (m : DecisionMsg) : Bool := m.holds.all slotOk && decide (m.number < 65536)

def ListMsg.wf (m : ListMsg) : Bool :=
  slotOk m.slot && (match m.handle with | none => true | some h => handleOk h)

def Payload.wf (m : Payload) : Bool := decide (m.pindex < 1024) && decide (m.peer < 1024)

def TokenMsg.wf (m : TokenMsg) : Bool := slotOk m.slot && decide (m.token < 2 ^ 32)

def TaintMsg.wf (m : TaintMsg) : Bool := pcoreOk m.pcore && m.slots.all (fun x => slotOk x.1)

def JobMsg.wf : JobMsg → Bool
  | .list es => es.all ListMsg.wf
  | .tokens ts => ts.all TokenMsg.wf
  | .freed slots => slots.all slotOk
  | .cancel slot _ => slotOk slot
  | .reset => true
  | .resetDone => true
  | .registration desc handle _ count29 => desc.length == 256 && handleOk handle && decide (count29 < 2 ^ 29)
  | .sealed handle _ => handleOk handle
  | .release handle _ => handleOk handle
  | .adopted slots => slots.all slotOk
  | .replay es _ _ payloads => es.all ListMsg.wf && payloads.all Payload.wf
  | .progFault => true
  | .returned _ items => items.all Item.wf
  | .taint t => t.wf

def MirrorReq.wf (m : MirrorReq) : Bool := slotOk m.slot && m.desc.length == 256

def MirrorMsg.wf : MirrorMsg → Bool
  | .request r => r.wf
  | .kv slot _ pos _ => slotOk slot && decide (pos < 64)
  | .area slot _ _ => slotOk slot
  | .cancel slot => slotOk slot
  | .ended slot => slotOk slot

/-- A link block has 16 slots of 64 bytes and a trailer of 16 (R300). -/
def LinkBlock.wf (b : LinkBlock) : Bool := b.bytes.length == 1040

/-! ### Commands -/

/-- Every operand of a command is in its range. -/
def Instr.wf : Instr → Bool
  | .aeval i => i.wf
  | .aevalb i => i.wf
  | .athr i => i.wf
  | .arange i => i.wf
  | .arefc i => i.wf
  | .achk i => i.wf
  | .aproof i => i.wf
  | .qb4 i => i.wf
  | .qb8 i => i.wf
  | .dqcAlignN i => i.wf
  | .dqcAlignB i => i.wf
  | .dqcScale i => i.wf
  | .cvt i => i.wf
  | .ldv i => i.wf
  | .stv i => i.wf
  | .dmar i => i.wf
  | .dmaw i => i.wf
  | .mimg i => i.wf
  | .kvap i => i.wf
  | .kvgt i => i.wf
  | .transactionDone lcore _ => lcoreOk lcore
  | .send i => i.wf
  | .mcast i => i.wf
  | .recv i => i.wf
  | .rendezvousRequest lcore r => lcoreOk lcore && r.wf
  | .rendezvousAnswer lcore _ _ => lcoreOk lcore
  | .recvDataArrival lcore _ _ => lcoreOk lcore
  | .ligContribution i => i.wf
  | .ligReceiptMerge i => i.wf
  | .ligReceiptChain i => i.wf
  | .nop i => i.wf
  | .jmp i => i.wf
  | .brp i => i.wf
  | .loop i => i.wf
  | .halt i => i.wf
  | .wstrk i => i.wf
  | .bar i => i.wf
  | .fence i => i.wf
  | .movsr i => i.wf
  | .li i => i.wf
  | .alu i => i.wf
  | .addi i => i.wf
  | .cmp i => i.wf
  | .sel i => i.wf
  | .mma8 i => i.wf
  | .mma4 i => i.wf
  | .mmah i => i.wf
  | .vfma i => i.wf
  | .valu i => i.wf
  | .vred i => i.wf
  | .vexp i => i.wf
  | .vrsq i => i.wf
  | .topk i => i.wf
  | .samp i => i.wf
  | .reqn i => i.wf
  | .toko i => i.wf
  | .canq i => i.wf
  | .specVerify i => i.wf
  | .specDrop i => i.wf
  | .blotStage i => i.wf
  | .blotRead i => i.wf
  | .dgst i => i.wf
  | .susp i => i.wf
  | .fcpy i => i.wf
  | .arrayDelivery key hi lo => arrayOk key && hi.wf && lo.wf
  | .trackingWindowEnd key => arrayOk key
  | .flitReceived core port _ f => pcoreOk core && routerPortOk port && f.wf
  | .meshRetryExhausted core port => pcoreOk core && routerPortOk port
  | .meshCreditTimeout core port => pcoreOk core && routerPortOk port
  | .ligSlotTimeout core _ _ => pcoreOk core
  | .ligReceiptTimeout lcore _ => lcoreOk lcore
  | .routerFault core port _ => pcoreOk core && routerPortOk port
  | .routeTableSwitch => true
  | .crossingSwitchDone region => regionOk region
  | .crossingMesochronous region side => regionOk region && decide (side < 3)
  | .fenceOnly src pcore => sourceOk src && pcoreOk pcore
  | .fenceAndReplace src pcore => sourceOk src && pcoreOk pcore
  | .migrate src pcore => sourceOk src && pcoreOk pcore
  | .strokeBoundary => true
  | .statusPoint => true
  | .decisionPoint => true
  | .statusMessage part m => partOk part && m.wf
  | .decisionMessage part m => partOk part && m.wf
  | .spanAbandon part => partOk part
  | .autoPartialOn part => partOk part
  | .autoPartialOff part => partOk part
  | .suspectHoldLimit part => partOk part
  | .strokeSyncPulse _ _ => true
  | .syncLost => true
  | .refclkLoss => true
  | .holdoverEnd _ _ => true
  | .holdoverExpired => true
  | .periodSwitch => true
  | .jobStart part => partOk part
  | .run src => sourceOk src
  | .stop src => sourceOk src
  | .switchArm src => sourceOk src
  | .switchCancel src => sourceOk src
  | .resync src => sourceOk src
  | .numClr src => sourceOk src
  | .phaltResume src part => sourceOk src && partOk part
  | .ppolWrite src part _ => sourceOk src && partOk part
  | .intake reads => reads.all IntakeRead.wf
  | .requestDescriptor part desc => partOk part && bytesOk 256 desc
  | .cancel src part _ => sourceOk src && partOk part
  | .pause src part _ => sourceOk src && partOk part
  | .resume src part _ => sourceOk src && partOk part
  | .priority src part _ => sourceOk src && partOk part
  | .release src part _ => sourceOk src && partOk part
  | .cqConsWrite src part _ => sourceOk src && partOk part
  | .parkCopyDone slot => slotOk slot
  | .resumeReady slot _ => slotOk slot
  | .parkTtlExpired slot => slotOk slot
  | .handleTtlExpired handle => handleOk handle
  | .sampleCompare _ _ => true
  | .taintReportWrite => true
  | .taintConsWrite src _ => sourceOk src
  | .proofPart => true
  | .proofPartJudge n _ _ => decide (n ≤ 32)
  | .proofDeadline => true
  | .proofNext src _ => sourceOk src
  | .thaw src => sourceOk src
  | .imageLoad src _ => sourceOk src
  | .reload src _ => sourceOk src
  | .imageDone _ => true
  | .discardNext src _ => sourceOk src
  | .program src _ => sourceOk src
  | .roll src _ => sourceOk src
  | .refresh src _ => sourceOk src
  | .erase src _ => sourceOk src
  | .writeSlotStart => true
  | .writeSlotDone key _ => arrayOk key
  | .offlineChangeComplete part => partOk part
  | .rollSwitch part => partOk part
  | .arrayVerifyDone key _ => arrayOk key
  | .calOrder src _ => sourceOk src
  | .calibrationEvaluation key => arrayOk key
  | .calibrationDone key _ _ => arrayOk key
  | .trimAdapterTraining part _ _ _ => partOk part
  | .adapterLoad src part _ => sourceOk src && partOk part
  | .adapterUnload src part _ => sourceOk src && partOk part
  | .adapterLoadDone part _ => partOk part
  | .planLoad src part _ => sourceOk src && partOk part
  | .planLoadDone part _ => partOk part
  | .planUnload src part _ => sourceOk src && partOk part
  | .linkBlockReceived port b => linkPortOk port && b.wf
  | .linkPortDown port _ => linkPortOk port
  | .portTrainingDone port _ => linkPortOk port
  | .autoRetrain port => linkPortOk port
  | .retrain src port => sourceOk src && linkPortOk port
  | .portDisable src port _ => sourceOk src && linkPortOk port
  | .packetReceived port vc => linkPortOk port && decide (vc < 7)
  | .routeAnnouncement _ _ => true
  | .jobControlMessage part m => partOk part && m.wf
  | .heartbeatSend => true
  | .heartbeatReceived part _ _ _ => partOk part
  | .partnerLost part => partOk part
  | .mirrorData part _ m => partOk part && m.wf
  | .mirrorAck part _ => partOk part
  | .coordWrite src _ _ => sourceOk src
  | .growArm src _ _ => sourceOk src
  | .growth => true
  | .vfFlr part => partOk part
  | .flrComplete part => partOk part
  | .pfFlr => true
  | .vfEnableClear _ _ => true
  | .busMasterEnable func _ => funcOk func
  | .msixUnmask func vector => funcOk func && vectorOk vector
  | .moderationTimer func vector => funcOk func && vectorOk vector
  | .create src _ => sourceOk src
  | .destroy src _ => sourceOk src
  | .partReset src _ => sourceOk src
  | .partResetDiscard src _ => sourceOk src
  | .setShares src _ => sourceOk src
  | .intakeRelease src part _ => sourceOk src && partOk part
  | .perstNAssert => true
  | .perstNDeassert => true
  | .warmDeviceReset => true
  | .powerOn => true
  | .powerLoss => true
  | .lockLost domain => decide (domain < 32)
  | .bringStep1 src _ work => sourceOk src && work.wf
  | .bringStep2 src _ work => sourceOk src && work.wf
  | .bringStep3 src _ work => sourceOk src && work.wf
  | .bringStep4 src _ work => sourceOk src && work.wf
  | .bringStep5 src _ work => sourceOk src && work.wf
  | .bringStep6 src _ work => sourceOk src && work.wf
  | .bringStep7 src _ work => sourceOk src && work.wf
  | .bringStep8 src _ work => sourceOk src && work.wf
  | .bringStep9 src _ work => sourceOk src && work.wf
  | .bringStep10 src _ work => sourceOk src && work.wf
  | .bringStep11 src _ work => sourceOk src && work.wf
  | .bringStep12 src _ work => sourceOk src && work.wf
  | .bringStep13 src _ work => sourceOk src && work.wf
  | .bringStep14 src _ work => sourceOk src && work.wf
  | .bringStep15 src _ work => sourceOk src && work.wf
  | .bringStepComplete _ => true
  | .bringStepTimeout _ => true
  | .fwupPrepare src part _ => sourceOk src && partOk part
  | .fwupReady part _ => partOk part
  | .fwupSwitch src part => sourceOk src && partOk part
  | .fwupRevert src part => sourceOk src && partOk part
  | .fwupAbort src part => sourceOk src && partOk part
  | .firmwareBankSwitch part => partOk part
  | .secReport src _ => sourceOk src
  | .secGetCert src => sourceOk src
  | .unlock src _ => sourceOk src
  | .relock src => sourceOk src
  | .slotWrite src _ _ => sourceOk src
  | .slotWriteDone _ => true
  | .svnCommit src => sourceOk src
  | .returnOrder src => sourceOk src
  | .returnEraseDone _ => true
  | .seal src => sourceOk src
  | .mctpGetReport _ _ => true
  | .mctpGetCert => true
  | .mctpUnlock _ => true
  | .mctpRelock => true
  | .reportSnapshot => true
  | .reportSigned _ => true
  | .unlockExpiry => true
  | .thermalSample readings => readings.all (fun x => decide (x.1 < 308))
  | .throttleStep hub => regionOk hub
  | .rateDividerStep hub => regionOk hub
  | .powerAverage => true
  | .leakDetected _ _ => true
  | .flowUpdate => true
  | .hbmCeRateCheck stack => stackOk stack
  | .refEnWrite src _ => sourceOk src
  | .refReady => true
  | .precisionConversionDone modulator _ => decide (modulator < 4)
  | .sarSample chan _ => fastOk chan
  | .groupDue group => decide (group < 2)
  | .calZero src chan => sourceOk src && chanOk chan
  | .calFull src chan => sourceOk src && chanOk chan
  | .calAbandon src chan => sourceOk src && chanOk chan
  | .convCalMeasureDone _ _ => true
  | .calFullTimeout => true
  | .selfCheck _ _ => true
  | .armWrite src page _ => sourceOk src && pageOk page
  | .armExpire src page => sourceOk src && pageOk page
  | .intRawW1c src page _ => sourceOk src && pageOk page
  | .intForce src page _ => sourceOk src && pageOk page
  | .intEnWrite src page _ => sourceOk src && pageOk page
  | .irqEnWrite src page _ => sourceOk src && pageOk page
  | .captClr src page => sourceOk src && pageOk page
  | .loReadLatch src page offset => sourceOk src && pageOk page && accessOk offset 4
  | .cancelLatRead src => sourceOk src
  | .powerRead src => sourceOk src
  | .convResultRead src chan => sourceOk src && chanOk chan
  | .registerWrite src page offset size _ => sourceOk src && pageOk page && accessOk offset size
  | .flowPulseEdge => true
  | .windowWrite src part offset _ => sourceOk src && partOk part && decide (offset < 2 ^ 30)

end Sys2Proof
end

