-- ==== Sys2Proof/Machine/Routes.lean ====
section
/-! DEFINITION. The mesh: neighbours and attachments (R12), the bits of a flit (R104), receive buffers and credits (R105), and
route tables (R106, R122). -/

namespace Sys2Proof.Machine

/-! ### Neighbours and attachments (R11, R12) -/

/-- The port through which a neighbour sees a core: north and south, east and west are opposite. -/
def oppositePort (port : Nat) : Nat := match port with
  | 0 => 1
  | 1 => 0
  | 2 => 3
  | 3 => 2
  | n => n

/-- The neighbour of a core through a mesh port, if there is one (R12). -/
def meshNeighbour (c port : Nat) : Option Nat :=
  match port with
  | 0 => if coreRow c = 0 then none else some (c - 36)
  | 1 => if coreRow c = 31 then none else some (c + 36)
  | 2 => if coreCol c = 35 then none else some (c + 1)
  | 3 => if coreCol c = 0 then none else some (c - 1)
  | _ => none

def portIsUp (s : State) (c port : Nat) : Bool := (s.pcore c).portUp.testBit port

/-- A flit can pass by a port of router `c`: the port is up, and so is the port at the other end (log entry 94). -/
def linkUp (s : State) (c port : Nat) : Bool :=
  portIsUp s c port && (match meshNeighbour c port with
    | none => true
    | some n => portIsUp s n (oppositePort port))

/-- The reticle field of a core (R12). -/
def reticleField (c : Nat) : Nat := coreRow c / 16 * 2 + coreCol c / 18

/-- Routers of an attachment: edges 0 to 7 are the HBM stacks, 8 to 19 the link ports, 20 the PCIe and service blocks (R12). Each of the
four ports of a link group has four of its sixteen rows, in order (R122: four routers to a port; log entry 94). -/
def edgeRouters (e : Nat) : List Nat :=
  if e < 4 then (List.range 9).map (fun i => 9 * e + i)
  else if e < 8 then (List.range 9).map (fun i => 36 * 31 + 9 * (e - 4) + i)
  else if e < 16 then (List.range 4).map (fun i => 36 * (4 * (e - 8) + i))
  else if e < 20 then (List.range 4).map (fun i => 36 * (16 + 4 * (e - 16) + i) + 35)
  else (List.range 16).map (fun i => 36 * i + 35)

/-- The outward port of an attachment's routers. -/
def edgePort (e : Nat) : Nat := if e < 4 then 0 else if e < 8 then 1 else if e < 16 then 3 else 2

/-- What stands outside a port of a router, if anything does. -/
def edgeAt (c port : Nat) : Option Nat :=
  (List.range numEdges).find? (fun e => edgePort e == port && (edgeRouters e).contains c)

/-! ### Flits (R104) -/

/-- Sideband [111:0]. -/
def flitSideband (f : Flit) : Nat :=
  f.dest + 2 ^ 11 * f.src + 2 ^ 22 * f.vc + 2 ^ 24 * f.typ + 2 ^ 28 * f.tag + 2 ^ 44 * f.lfmt.toNat + 2 ^ 45 * f.last.toNat
    + 2 ^ 46 * f.ncontrib + 2 ^ 56 * f.stepTag + 2 ^ 64 * f.lchk.toNat

/-- `n` bytes of a number, byte 0 first. -/
def numBytes (n x : Nat) : List Byte := (List.range n).map (fun i => BitVec.ofNat 8 (x / 2 ^ (8 * i)))

/-- The CRC over payload and sideband [111:0], each from its byte 0 (log entry 94 for the order). -/
def flitCrc (f : Flit) : BitVec 16 := crc16 (numBytes 64 f.payload.toNat ++ numBytes 14 (flitSideband f))

/-- The payload of a ligature flit: lane i in bits [32i+31:32i]. -/
def packLanes (ls : List W32) : BitVec 512 :=
  BitVec.ofNat 512 (ls.zipIdx.foldl (fun acc (x, i) => acc + x.toNat * 2 ^ (32 * i)) 0)

/-- The destination that a route table knows a flit by. -/
def flitTarget (f : Flit) : Nat := if f.dest = 0x7FF then 1152 + f.edge else f.dest

/-! ### Route tables (R106, R122) -/

/-- Dimension-ordered: along the row to the destination column, then along the column. -/
def towards (r d : Nat) : Nat :=
  if coreCol r < coreCol d then 2 else if coreCol d < coreCol r then 3
  else if coreRow r < coreRow d then 1 else if coreRow d < coreRow r then 0 else 4

/-- The router by which traffic from `r` leaves to an edge: the nearest one of the attachment that the tables count as up. -/
def edgeExit (s : State) (r e : Nat) : Option Nat :=
  chooseSpareFrom ((edgeRouters e).filter (fun c => !s.mesh.edgeDown.contains (c, edgePort e))) r

/-- The route without detours. -/
def plainRoute (s : State) (r d : Nat) : Option Nat :=
  if d < numPcores then some (towards r d)
  else match edgeExit s r (d - numPcores) with
    | none => none
    | some x => some (if x = r then edgePort (d - numPcores) else towards r x)

/-- The output port of router `r` for destination `d`. -/
def routeOf (s : State) (r d : Nat) : Option Nat :=
  match Tbl.get? s.mesh.routes (2048 * r + d) with
  | some p => some p
  | none => plainRoute s r d

/-- Edge routers that are down, or whose outward port is. -/
def edgesDown (s : State) : List (Nat × Nat) :=
  (List.range numEdges).flatMap (fun e => ((edgeRouters e).filter (fun c =>
    !(s.pcore c).rtrUp || !portIsUp s c (edgePort e))).map (fun c => (c, edgePort e)))

/-- West-first routing: no turn into the west from another direction. The hop before and the hop after an entry keep to it. -/
def turnOk (s : State) (x : RouteEntry) : Bool :=
  let into (q : Nat) : Bool := match meshNeighbour x.router q with
    | none => false
    | some m => routeOf s m x.dest == some (oppositePort q)
  let before := x.port != 3 || !([0, 1, 3].any into)
  let after := x.port == 3 || (match meshNeighbour x.router x.port with
    | none => true
    | some m => routeOf s m x.dest != some 3)
  before && after

/-- The entries that differ from dimension order, as the mesh controller chooses them. -/
def freeRoutes (s : State) : List RouteEntry :=
  (Config.detours s.freeCtr).map (fun (r, d, p) => { router := r, dest := d, port := p })

def routeTbl (rs : List RouteEntry) : Tbl Nat := rs.foldl (fun t x => Tbl.set t (2048 * x.router + x.dest) x.port) []

/-- The tables that the mesh controller has computed. Which detour it takes among those of west-first routing the manual leaves open, so
the entries that differ from dimension order are free (log entry 94); one that breaks R106 is none. -/
def buildRoutes (s : State) (rs : List RouteEntry) : State :=
  let s1 := { s with mesh := { s.mesh with edgeDown := edgesDown s, routes := routeTbl rs } }
  { s1 with mesh := { s1.mesh with routes := routeTbl (rs.filter (fun x =>
      linkUp s x.router x.port && (x.port != 4 || x.dest == x.router) && turnOk s1 x)) } }

/-- The tables lead from router `r` to destination `d` over ports that are up. -/
def reaches (s : State) (d : Nat) : Nat → Nat → Bool
  | 0, _ => false
  | n + 1, r => match routeOf s r d with
    | none => false
    | some p =>
      if !(s.pcore r).rtrUp || !linkUp s r p then false
      else if p = 4 then r == d
      else match meshNeighbour r p with
        | none => decide (numPcores ≤ d)
        | some m => reaches s d n m

def deliverable (s : State) (r d : Nat) : Bool := reaches s d (numPcores + 1) r

/-! ### Receive buffers and credits (R105) -/

def bufKey (c port vc : Nat) : Nat := 20 * c + 4 * port + vc
def bufOf (s : State) (c port vc : Nat) : List Flit := Tbl.getD s.vcBuf (bufKey c port vc) []

/-- The sender holds a credit for a port and virtual channel. Every channel has its own, so a response never waits for a request. -/
def hasCredit (s : State) (c port vc : Nat) : Bool :=
  let b := bufOf s c port vc
  b.isEmpty || decide (b.length < if vc = 0 then 4 else 1 + Config.vcDepth vc)

def pushFlit (s : State) (c port : Nat) (f : Flit) : State :=
  { s with vcBuf := Tbl.set s.vcBuf (bufKey c port f.vc) (bufOf s c port f.vc ++ [f]) }

/-- The receive port of router `n` whose oldest flit of the channel is `f`. -/
def headPort (s : State) (n : Nat) (f : Flit) : Option Nat :=
  (List.range 5).find? (fun q => (bufOf s n q f.vc).head? == some f)

/-- A flit leaves the buffer that it heads; its credit returns. -/
def popFlit (s : State) (n : Nat) (f : Flit) : State := match headPort s n f with
  | none => s
  | some q => { s with vcBuf := Tbl.set s.vcBuf (bufKey n q f.vc) (bufOf s n q f.vc).tail }

/-- A flit of VC 0 stands ready at router `n` for output port `p`, with a credit at the other end: it goes before VCs 1 to 3. -/
def urgent (s : State) (n p : Nat) : Bool :=
  ((List.range 5).any (fun q => match (bufOf s n q 0).head? with
    | none => false
    | some g => routeOf s n (flitTarget g) == some p))
  && (match meshNeighbour n p with
    | none => true
    | some m => hasCredit s m (oppositePort p) 0)

end Sys2Proof.Machine
end

