-- ==== Sys2Proof/Machine/Security.lean ====
section
/-! DEFINITION. Identity, attestation and life-cycle (R366 to R379). -/

namespace Sys2Proof.Machine

/-! ### The attestation report (R372, R373) -/

/-- `LINK.COORD` and `LINK.BUDDY` as they read (R327). -/
def coordWord (s : State) : Nat :=
  s.link.coord + 2 ^ 16 * s.link.racks + (if s.link.valid then 2 ^ 23 else 0) + 2 ^ 24 * s.link.profile
def buddyWord (s : State) : Nat := s.link.buddy + (if s.link.buddyValid then 2 ^ 15 else 0)
/-- `STROKE.PERIOD_ACT` as it reads (R99). -/
def periodWord (s : State) : Nat := s.stroke.periodAct + (if s.stroke.pend.isSome then 2 ^ 22 else 0)

/-- `PART.CORES` to `PART.SHARE1` of a partition as they read (R347). -/
def partWords (c : PartCfg) : List Nat :=
  [c.lbase + 2 ^ 10 * c.lcount, c.sbase + 2 ^ 16 * (c.scount - 1), c.quota, c.pages, c.scratch, c.adapt, c.image,
   c.share0.toNat, c.share1.toNat]

/-- `INTEG.CFG` and `INTEG.PROOF_CFG` as they read: the enables read 1 in SEALED (R274, R376). -/
def integWord (s : State) (off bit : Nat) : Nat :=
  ((s.reg pgInteg off) ||| (if s.sec.lcState = 1 then BitVec.ofNat 32 (2 ^ bit) else 0#32)).toNat

/-- The configuration digest of R373. -/
def configDigest (s : State) : BitVec 256 :=
  let ws := [coordWord s, buddyWord s, periodWord s, s.stroke.layoutAct.toNat, integWord s 0x040 16, integWord s 0x044 28]
    ++ (List.range 32).flatMap (fun p =>
      let x := s.part p
      if x.state = .none ∨ x.state = .creating then List.replicate 10 0
      else partWords x.cfg ++ [(s.jobReg p 0x12C).toNat])
  digest32 (ws.flatMap (leBytes 4))

def fwupOf (s : State) (p : Nat) : Fwup := Tbl.getD s.bring.fwup p Fwup.reset
/-- An update of a partition is in progress (R360). -/
def fwupRuns (s : State) (p : Nat) : Bool := [1, 2, 3].contains (fwupOf s p).state
/-- An edition change, offline or rolling, is in progress (R334). -/
def changing (x : Part) : Bool := match x.change with | .none => false | _ => true

/-- The active firmware bank of a partition: the image of step 10 until an update switches it (R359). -/
def activeBank (s : State) (p : Nat) : FwBank := (fwupOf s p).active.getD s.bring.coreImage

/-- The 128 bytes of partition p in a report (R372). -/
def partRecord (s : State) (pmask : W32) (p : Nat) : List Byte :=
  let x := s.part p
  if !pmask.getLsbD p then List.replicate 128 0#8
  else if x.state = .none ∨ x.state = .creating then List.replicate 128 0#8
  else
    let b := activeBank s p
    [1#8, BitVec.ofNat 8 ((if x.plan.isSome then 1 else 0) + (if changing x then 2 else 0)
        + (if fwupRuns s p then 4 else 0))]
    ++ leBytes 2 0 ++ leBytes 4 b.version ++ leBytes 32 b.mfDigest.toNat
    ++ leBytes 32 (match x.plan with | some pl => pl.digest.toNat % 2 ^ 256 | none => 0)
    ++ leBytes 8 x.edition ++ leBytes 32 (if x.curImage.isSome then x.edDigest.toNat % 2 ^ 256 else 0) ++ leBytes 16 0

/-- Public device identity key. -/
def dik : List Byte := (List.range 64).map Config.dikByte

/-- Bundle of the slot that the running boot image came from. -/
def runningSlot (s : State) : List Byte := if s.sec.bootedB then s.sec.slotB else s.sec.slotA

/-- Bytes 0x0000 to 0x10FF of a report, measured in one snapshot (R372). -/
def reportBody (s : State) (r : SecReq) : List Byte :=
  let c := s.sec
  [0x46#8, 0x5A#8, 0x41#8, 0x52#8] ++ leBytes 2 1 ++ leBytes 1 c.lcState
  ++ leBytes 1 ((if c.unlocked then 1 else 0) + (if c.bootedB then 2 else 0) + (if c.degraded then 4 else 0))
  ++ leBytes 8 c.serial.toNat ++ leBytes 8 c.seq
  ++ leBytes 8 (if strokesRun s then s.stroke.number else 0)
  ++ bytesAt r.nonce 0 32 ++ dik ++ leBytes 2 c.ttid ++ leBytes 2 0 ++ leBytes 4 r.pmask.toNat ++ leBytes 8 0
  ++ leBytes 32 (mfDigest (runningSlot s)).toNat
  ++ leBytes 1 c.fwSvn ++ leBytes 1 c.keySvn ++ leBytes 1 c.revoked ++ leBytes 13 0
  ++ leBytes 32 (configDigest s).toNat ++ leBytes 32 0
  ++ (List.range 32).flatMap (partRecord s r.pmask)

/-- A report with its signature. -/
def signedReport (body : List Byte) : List Byte := body ++ (List.range sigLen).map (Config.signByte body)

/-- The identity certificate (R374). -/
def certificate (s : State) : List Byte :=
  leBytes 8 s.sec.serial.toNat ++ dik ++ leBytes 2 s.sec.ttid ++ leBytes 62 0 ++ (List.range sigLen).map Config.certByte

/-! ### Requests and orders (R375, R379) -/

/-- A PF order is in progress (SEC.STAT.BUSY). -/
def pfBusy (s : State) : Bool := s.sec.reqs.any (fun r => !r.mc) || s.sec.slotWrite.isSome

def secResult (s : State) (op result : Nat) : State := { s with sec := { s.sec with result := result, lastOp := op } }

/-- An armed order of SEC.CMD from the PF: refused with BUSY while an order of the PF is in progress. -/
def secOrder (s : State) (src op : Nat) (slotB : Bool) (act : State → State) : State :=
  armedWrite s src pgSec 0x050 (BitVec.ofNat 32 (op + (if slotB then 16 else 0) + 2 ^ 31)) (fun t =>
    if pfBusy t then secResult t op 4 else act t)

/-- Queues a request; a report is measured at once while strokes are stopped (R372). -/
def queueReq (s : State) (r : SecReq) : State :=
  let snap := if r.op = 1 ∧ !strokesRun s then some (reportBody s r) else none
  { s with sec := { s.sec with reqs := s.sec.reqs ++ [{ r with snapshot := snap }] } }

/-- SEC_REPORT (R372, R375): the nonce is read from `SEC.ADDR`. -/
def execSecReport (src : Nat) (nonce : Option (List Byte)) (s : State) : Host.Outcome State Fault Refusal :=
  .next (secOrder s src 1 false (fun t =>
    match nonce with
    | none => raise (secResult t 1 5) pgSec 1
    | some n =>
      { queueReq t { mc := false, op := 1, nonce := bytesAt n 0 32, pmask := t.reg pgSec 0x060, snapshot := none } with
        sec := { (queueReq t { mc := false, op := 1, nonce := bytesAt n 0 32, pmask := t.reg pgSec 0x060,
                               snapshot := none }).sec with lastOp := 1 } }))

/-- SEC_GET_CERT (R374). -/
def execSecGetCert (src : Nat) (s : State) : Host.Outcome State Fault Refusal :=
  .next (secOrder s src 2 false (fun t =>
    let t1 := queueReq t { mc := false, op := 2, nonce := [], pmask := 0#32, snapshot := none }
    { t1 with sec := { t1.sec with lastOp := 2 } }))

/-- The management controller holds a request (R375). -/
def mcBusy (s : State) : Bool := s.sec.reqs.any (fun r => r.mc)
/-- An answer over MCTP: the response bytes, for a refusal its code. -/
def mcAnswer (s : State) (bs : List Byte) : State := { s with sec := { s.sec with mcOut := s.sec.mcOut ++ [bs] } }

/-- MCTP_GET_REPORT (R375). -/
def execMctpGetReport (nonce : List Byte) (pmask : W32) (s : State) : Host.Outcome State Fault Refusal :=
  .next (if mcBusy s then mcAnswer s [4#8]
    else queueReq s { mc := true, op := 1, nonce := bytesAt nonce 0 32, pmask := pmask, snapshot := none })

/-- MCTP_GET_CERT (R375). -/
def execMctpGetCert (s : State) : Host.Outcome State Fault Refusal :=
  .next (if mcBusy s then mcAnswer s [4#8]
    else queueReq s { mc := true, op := 2, nonce := [], pmask := 0#32, snapshot := none })

/-- REPORT_SNAPSHOT (R372): at a boundary, or while strokes are stopped, every report that waits is measured. -/
def execReportSnapshot (s : State) : Host.Outcome State Fault Refusal :=
  if strokesRun s && s.stroke.count != 0 then .next s
  else .next { s with sec := { s.sec with
    reqs := s.sec.reqs.map (fun r =>
      if r.op = 1 ∧ r.snapshot.isNone then { r with snapshot := some (reportBody s r) } else r) } }

/-- REPORT_SIGNED (R372, R374, R375): the oldest request is served and delivered: for the PF at `SEC.ADDR` + 4 KiB, unless
its DMA fails. -/
def execReportSigned (dmaOk : Bool) (s : State) : Host.Outcome State Fault Refusal :=
  match s.sec.reqs with
  | [] => .next s
  | r :: rest =>
    if r.op = 1 ∧ r.snapshot.isNone then .next s
    else
      let out := match r.op, r.snapshot with
        | 1, some b => signedReport b
        | _, _ => certificate s
      let s1 := { s with sec := { s.sec with reqs := rest, seq := if r.op = 1 then s.sec.seq + 1 else s.sec.seq } }
      if r.mc then .next (mcAnswer s1 out)
      else if dmaOk then
        let a := 4096 * (s.pair pgSec 0x058 0x05C / 4096) + 4096
        .next (raise { secResult s1 r.op 0 with hostOut := Mem.writeBytes s.hostOut a out } pgSec 0)
      else .next (raise (secResult s1 r.op 5) pgSec 1)

/-- A PF FLR abandons the PF's request with ABORTED; one of the management controller goes on (R375). -/
def secAbandon (s : State) : State :=
  match s.sec.reqs.find? (fun r => !r.mc) with
  | none => s
  | some r => raise (secResult { s with sec := { s.sec with reqs := s.sec.reqs.filter (fun q => q.mc) } } r.op 9) pgSec 1

/-! ### Unlock (R377) -/

/-- A token that R377 accepts. -/
def tokenOk (s : State) (t : List Byte) : Bool :=
  s.sec.lcState == 1 && t.length == 29856 && numAt t 0 8 == s.sec.serial.toNat && numAt t 8 4 == s.sec.unlockCtr
  && decide (1 ≤ numAt t 12 2) && decide (numAt t 12 2 ≤ 720) && zeroAt t 14 50
  && Config.slhVerify Config.unlockKey (bytesAt t 0 64) (bytesAt t 64 sigLen)

/-- Opens telemetry access for the token's hours and counts the token. -/
def unlockWith (s : State) (t : List Byte) : State :=
  raise { s with sec := { s.sec with unlocked := true, unlockCtr := s.sec.unlockCtr + 1, unlockLeft := numAt t 12 2 } }
    pgSec 2

/-- Ends access under an unlock token. -/
def relock (s : State) : State :=
  if s.sec.unlocked then raise { s with sec := { s.sec with unlocked := false, unlockLeft := 0 } } pgSec 3 else s

/-- UNLOCK (R377, R379): the token is read at `SEC.ADDR`. -/
def execUnlock (src : Nat) (token : Option (List Byte)) (s : State) : Host.Outcome State Fault Refusal :=
  .next (secOrder s src 3 false (fun t =>
    match token with
    | none => secResult t 3 5
    | some k => if tokenOk t k then unlockWith (secResult t 3 0) k else secResult t 3 7))

/-- RELOCK (R377, R379): outside an unlocked SEALED state it completes with OK and does nothing. -/
def execRelock (src : Nat) (s : State) : Host.Outcome State Fault Refusal :=
  .next (secOrder s src 4 false (fun t => relock (secResult t 4 0)))

/-- MCTP_UNLOCK (R375, R377). -/
def execMctpUnlock (token : List Byte) (s : State) : Host.Outcome State Fault Refusal :=
  .next (if mcBusy s then mcAnswer s [4#8]
    else if tokenOk s token then mcAnswer (unlockWith s token) [0#8] else mcAnswer s [7#8])

/-- MCTP_RELOCK (R375, R377). -/
def execMctpRelock (s : State) : Host.Outcome State Fault Refusal :=
  .next (if mcBusy s then mcAnswer s [4#8] else mcAnswer (relock s) [0#8])

/-- UNLOCK_EXPIRY (R377): the token's hours of powered time have passed. -/
def execUnlockExpiry (s : State) : Host.Outcome State Fault Refusal := .next (relock s)

/-! ### Firmware slots and fuses (R368 to R371) -/

/-- Verification of a bundle against this device's fuses (R368). -/
def verify (s : State) (kind : Nat) (bs : List Byte) : Nat :=
  verifyBundle bs kind s.sec.ttid s.sec.revoked s.sec.fwSvn s.sec.keySvn

/-- SLOT_WRITE (R370): the bundle is verified before the copy; refused with STATE for the slot of the running boot image.
The slot is invalid from the start of the copy. -/
def execSlotWrite (src : Nat) (slotB : Bool) (bundle : Option (List Byte)) (s : State) :
    Host.Outcome State Fault Refusal :=
  .next (secOrder s src 5 slotB (fun t =>
    if t.bring.doneMap.testBit 6 ∧ t.sec.bootedB = slotB then secResult t 5 3
    else match bundle with
    | none => raise (secResult t 5 5) pgSec 6
    | some bs =>
      let r := verify t 1 bs
      if r ≠ 0 then raise (secResult t 5 r) pgSec 6
      else
        let t1 := { t with sec := { t.sec with slotWrite := some (slotB, bs), lastOp := 5 } }
        if slotB then { t1 with sec := { t1.sec with bValid := false, slotB := [] } }
        else { t1 with sec := { t1.sec with aValid := false, slotA := [] } }))

/-- SLOT_WRITE_DONE (R370): the copy is read back and verified again; a failed write leaves the slot invalid. -/
def execSlotWriteDone (readBack : List Byte) (s : State) : Host.Outcome State Fault Refusal :=
  match s.sec.slotWrite with
  | none => .next s
  | some (b, _) =>
    let r := verify s 1 readBack
    let c := { s.sec with slotWrite := none, result := r }
    let c' := if b then { c with slotB := readBack, bValid := r == 0 } else { c with slotA := readBack, aValid := r == 0 }
    .next (raise { s with sec := c' } pgSec 6)

/-- SVN_COMMIT (R371): fuse fields only increase; ROOT_IDX itself is never revoked. Refused with STATE before a boot image
runs (log entry 27). -/
def execSvnCommit (src : Nat) (s : State) : Host.Outcome State Fault Refusal :=
  .next (secOrder s src 6 false (fun t =>
    if !t.bring.doneMap.testBit 6 then secResult t 6 3
    else
      let m := runningSlot t
      let keep := mfRevoke m % 16
      let rev := if keep.testBit (mfRoot m) then keep - 2 ^ mfRoot m else keep
      secResult { t with sec := { t.sec with
        fwSvn := max t.sec.fwSvn (mfSvn m), keySvn := max t.sec.keySvn (mfKeySvn m),
        revoked := t.sec.revoked ||| rev } } 6 0))

/-! ### Life-cycle (R376, R378) -/

/-- SEAL (R376, R379). -/
def execSeal (src : Nat) (s : State) : Host.Outcome State Fault Refusal :=
  .next (secOrder s src 8 false (fun t =>
    if t.sec.lcState = 0 then raise (secResult { t with sec := { t.sec with lcState := 1 } } 8 0) pgSec 4
    else secResult t 8 3))

/-- The conditions of RETURN (R378). -/
def returnOk (s : State) : Bool :=
  s.sec.lcState == 1 && (List.range 32).all (fun p => (s.part p).state == .none) && s.stroke.state == .stopped
  && (List.range 32).all (fun p => !fwupRuns s p) && s.sec.slotWrite.isNone
  && s.reg pgSec 0x064 == s.sec.serial.extractLsb' 0 32

/-- RETURN (R378): the fuses are blown and the customer secrets erased; the erase of arrays and memories runs. -/
def execReturn (src : Nat) (s : State) : Host.Outcome State Fault Refusal :=
  .next (secOrder s src 7 false (fun t =>
    if !returnOk t then secResult t 7 3
    else
      let t1 := { secResult t 7 0 with
        arrays := Tbl.mapVal (fun _ a => { a with resState := .empty, edition := 0, tile := 0, resPart := 0,
                                                  recOk := true, due := false, shadowed := false }) t.arrays
        bring := { t.bring with boot := [], retained := [], fwup := Tbl.mapVal (fun _ f => { f with standby := none })
                                                                      t.bring.fwup }
        integ := { t.integ with taints := [] } }
      raise { t1 with sec := { t1.sec with lcState := 2, unlocked := false, unlockLeft := 0, erasing := true } } pgSec 4))

/-- RETURN_ERASE_DONE (R378): arrays and memories are erased; an array that cannot be erased keeps debug closed. An
interrupted erase goes on once step 7 has completed. -/
def execReturnEraseDone (failed : List Nat) (s : State) : Host.Outcome State Fault Refusal :=
  if !s.sec.erasing ∨ !s.bring.doneMap.testBit 7 then .next s
  else
    let s1 := { s with
      arrays := Tbl.mapVal (fun k a => if failed.contains k then a else { a with cells := [] }) s.arrays
      scribes := []
      sec := { s.sec with erasing := false, eraseDone := failed.isEmpty, eraseFail := !failed.isEmpty } }
    .next (if failed.isEmpty then raise s1 pgSec 5 else s1)

end Sys2Proof.Machine
end

