-- ==== Sys2Proof/Machine/Regions.lean ====
section
/-! DEFINITION. Region dividers and crossings (R113, R114, R127, R388). -/

namespace Sys2Proof.Machine

def State.hub (s : State) (r : Nat) : Hub := Tbl.getD s.therm.hubs r Hub.reset
def State.setHub (s : State) (r : Nat) (h : Hub) : State :=
  { s with therm := { s.therm with hubs := Tbl.set s.therm.hubs r h } }

/-- The effective divider of a region: the smallest of its rate divider, d_T and d_C (R388). -/
def effDiv (s : State) (r : Nat) : Nat := min (s.hub r).rateDiv (min (s.hub r).thDiv s.therm.capDiv)

/-- `REGION.CLK.SRC` for the effective divider: 3 rate, 1 thermal, 2 cap, in this order of precedence (R388). -/
def divCause (s : State) (r : Nat) : Nat :=
  let e := effDiv s r
  if e = 16 then 0 else if (s.hub r).rateDiv = e then 3 else if (s.hub r).thDiv = e then 1 else 2

/-- The neighbour of a region on side 0 (across the row boundary), 1 (east) or 2 (west), and the number of crossings
between the two (R12, R113). -/
def neighbour (r side : Nat) : Option (Nat × Nat) :=
  match side with
  | 0 => some (if r < 4 then r + 4 else r - 4, 9)
  | 1 => if r % 4 < 3 then some (r + 1, 16) else none
  | 2 => if 0 < r % 4 then some (r - 1, 16) else none
  | _ => none

/-- The side of the neighbour that faces back. -/
def facing (side : Nat) : Nat := match side with | 1 => 2 | 2 => 1 | _ => 0

def Region.side (x : Region) (side : Nat) : Bool := match side with | 0 => x.xv | 1 => x.xe | _ => x.xw
def Region.setSide (x : Region) (side : Nat) (v : Bool) : Region :=
  match side with | 0 => { x with xv := v } | 1 => { x with xe := v } | _ => { x with xw := v }

/-- Sets the mode of the crossings on one side of a region, in the pages of both regions that they join, and counts the
switches of each (R113, R127; log entry 22). -/
def setCrossing (s : State) (r side : Nat) (async : Bool) : State :=
  match neighbour r side with
  | none => s
  | some (n, k) =>
    if (s.region r).side side = async then s
    else
      let x := s.region r
      let y := s.region n
      let s1 := s.setRegion r { x.setSide side async with count := sat 16 (x.count + k) }
      let s2 := s1.setRegion n { y.setSide (facing side) async with count := sat 16 (y.count + k) }
      let bit := if async then 1 else 2
      raiseAll s2 [(pgRegion r, bit), (pgRegion n, bit)]

/-- Brings a region's divider to the effective one: first every crossing of the region switches to asynchronous mode; the
divider takes effect when the switches are done (R114). While a switch runs, nothing new begins (R123). -/
def orderDivider (s : State) (r : Nat) : State :=
  let x := s.region r
  let e := effDiv s r
  let c := divCause s r
  match x.divNext with
  | some _ => s
  | none =>
    if x.div = e then s.setRegion r { x with src := c }
    else
      let s1 := [0, 1, 2].foldl (fun t side => setCrossing t r side true) s
      s1.setRegion r { s1.region r with divNext := some (e, c) }

/-- CROSSING_SWITCH_DONE (R114): the new divider takes effect; a divider ordered meanwhile starts the procedure again. -/
def execCrossingSwitchDone (region : Nat) (s : State) : Host.Outcome State Fault Refusal :=
  let x := s.region region
  match x.divNext with
  | none => .next s
  | some (d, c) =>
    let s1 := s.setRegion region { x with div := d, src := c, divNext := none }
    .next (orderDivider (raise s1 (pgRegion region) 2) region)

/-- CROSSING_MESOCHRONOUS (R113): both regions run at one divider and it has been unchanged for 4,096 cycles. -/
def execCrossingMesochronous (region side : Nat) (s : State) : Host.Outcome State Fault Refusal :=
  match neighbour region side with
  | none => .next s
  | some (n, _) =>
    let x := s.region region
    let y := s.region n
    if x.div = y.div ∧ x.divNext.isNone ∧ y.divNext.isNone then .next (setCrossing s region side false) else .next s

/-- Partitions with an ACTIVE or TAKING core in a region (R388). -/
def partsInRegion (s : State) (r : Nat) : List Nat :=
  ((s.pcores.filter (fun (c, x) => coreRegion c == r && (x.kind == .active || x.kind == .taking)
      && (s.part x.part).state != .none)).map (fun (_, x) => x.part)).dedup

/-- Raises a bit of FUNC for every partition with cores in a region (R346, R388). -/
def funcEvents (s : State) (r bit : Nat) : List (Nat × Nat) := (partsInRegion s r).map (fun p => (pgFunc p, 2 ^ bit))

end Sys2Proof.Machine
end

