-- ==== Sys2Proof/Machine/Thermal.lean ====
section
/-! DEFINITION. Temperature sensing and protection, power cap, leak and flow (R380 to R392, R434 to R436), and the error
rate of the memory stacks (R425). -/

namespace Sys2Proof.Machine

/-! ### Sensors and levels (R380, R385) -/

/-- The hubs that a sensor reports to (R380). -/
def hubsOf (id : Nat) : List Nat :=
  if id < 288 then
    let row := 2 * (id / 18)
    let col := 2 * (id % 18)
    [4 * (row / 16) + col / 9, 4 * (row / 16) + (col + 1) / 9].dedup
  else if id < 296 then [id - 288]
  else if id < 300 then [0]
  else if id < 304 then [4]
  else [7]

def isStackSensor (id : Nat) : Bool := decide (288 ≤ id) && decide (id < 296)

/-- Level at byte `lo` of LIMITS or, for a stack sensor, of LIMITS_MEM, in 1/16 degree C (R385, R391). -/
def level (s : State) (id lo : Nat) : Int := 16 * (s.field pgTherm (if isStackSensor id then 0x050 else 0x04C) lo 8 : Int)
def warnLevel (s : State) (id : Nat) : Int := level s id 0
def throttleLevel (s : State) (id : Nat) : Int := level s id 8
def shutLevel (s : State) (id : Nat) : Int := level s id 16
/-- The hysteresis in 1/16 K; values below 2 K act as 2 (R391). -/
def hyst (s : State) : Int := 16 * (max 2 (s.field pgTherm 0x04C 24 4) : Int)
/-- RISE.LIMIT in 0.1 K/ms, clamped to 10 to 100 (R391). -/
def riseLimit (s : State) : Nat := max 10 (min 100 (s.field pgTherm 0x054 0 8))
/-- RISE.HOLD in ms; 0 acts as 1. -/
def riseHold (s : State) : Nat := max 1 (s.field pgTherm 0x054 8 8)
/-- STEP.T_STEP in ms; 0 acts as 1. -/
def tStep (s : State) : Nat := max 1 (s.field pgTherm 0x058 0 4)

def State.sensor (s : State) (id : Nat) : Sensor := Tbl.getD s.therm.sensors id Sensor.reset

/-- Sensors that have not failed. -/
def working (s : State) (ids : List Nat) : List Nat := ids.filter (fun i => !(s.sensor i).failed)

def allSensors : List Nat := List.range 308
def hubSensors (r : Nat) : List Nat := allSensors.filter (fun i => (hubsOf i).contains r)

/-- Highest reading and its sensor, lowest ID first; (0, 0) where none works (R381). -/
def maxReading (s : State) (ids : List Nat) : Int × Nat :=
  match working s ids with
  | [] => (0, 0)
  | i :: rest => rest.foldl (fun m j => if m.1 < (s.sensor j).reading then ((s.sensor j).reading, j) else m)
      ((s.sensor i).reading, i)

/-- The rise of a sensor over 1 ms, in 1/16 K; none before a millisecond of readings exists (R384). -/
def riseOf (v : Sensor) : Option Int := v.past[15]?.map (fun p => v.reading - p)

/-- Takes one sample of a sensor (R381 to R383): `gap` sixteenths of a millisecond have passed since the last. -/
def takeSample (v : Sensor) (r : SensorRead) (gap : Nat) (shutAt : Int) : Sensor :=
  let failed := v.failed || !r.ok || decide (r.value < -320) || decide (2400 < r.value)
  { reading := r.value, past := (List.replicate gap v.reading ++ v.past).take 16, failed := failed,
    shut := !failed && decide (shutAt ≤ r.value) }

/-! ### Effects of a sample on a hub (R384 to R386) -/

/-- The dividers and conditions of a hub after a sample, with the events it raises: bits of THERM, and bits of FUNC for the
partitions of its region. -/
def hubSample (gap r : Nat) (acc : State × List (Nat × Nat)) : State × List (Nat × Nat) :=
  let t := acc.1
  let h := t.hub r
  let ids := working t (hubSensors r)
  let e := effDiv t r
  let m := maxReading t (hubSensors r)
  let lim : Int := riseLimit t
  let rises := ids.filterMap (fun i => riseOf (t.sensor i))
  let rise := rises.any (fun d => decide (16 * lim < 10 * d))
  let calm := if rises.all (fun d => decide (20 * d < 16 * lim)) then h.calm + gap else 0
  let hot := ids.any (fun i => decide (throttleLevel t i ≤ (t.sensor i).reading))
  let cool := ids.all (fun i => decide ((t.sensor i).reading < throttleLevel t i - hyst t))
  let warnOn := ids.any (fun i => decide (warnLevel t i ≤ (t.sensor i).reading))
  let warnOff := ids.all (fun i => decide ((t.sensor i).reading < warnLevel t i - hyst t))
  let warn := if warnOn then true else if warnOff then false else h.warn
  let blind := h.blind || (working t ((hubSensors r).filter (fun i => decide (i < 288)))).isEmpty
  let rate := if rise then max 1 (e / 2) else h.rateDiv
  let th := if blind then 8 else if hot && !h.hot then max 1 (e - 1) else h.thDiv
  let h' : Hub :=
    { h with maxTemp := m.1, maxSensor := m.2, rateDiv := rate, thDiv := th, calm := calm, hot := hot, cool := cool,
             warn := warn, blind := blind, holding := decide (rate < 16) && decide (calm < 16 * riseHold t) }
  let ev (b : Bool) (bit : Nat) : List (Nat × Nat) := if b then [(pgTherm, 2 ^ bit)] else []
  let fn (b : Bool) (bit : Nat) : List (Nat × Nat) := if b then funcEvents t r bit else []
  let throttled := decide (th < 16) && h.thDiv == 16
  let t1 := t.setHub r h'
  let t2 := { t1 with therm := { t1.therm with
                riseCnt := if rise then sat 8 (t1.therm.riseCnt + 1) else t1.therm.riseCnt,
                thrCnt := if throttled then sat 8 (t1.therm.thrCnt + 1) else t1.therm.thrCnt } }
  (t2, acc.2 ++ ev (warn && !h.warn) 0 ++ ev (!warn && h.warn) 1 ++ ev throttled 2 ++ ev rise 4
        ++ fn (warn && !h.warn) 5 ++ fn ((decide (rate < 16) || decide (th < 16)) && h.rateDiv == 16 && h.thDiv == 16) 6)

/-- Refresh of a stack by its temperature: doubled above 85 degrees C (R385, R425). -/
def refreshSample (acc : State × List (Nat × Nat)) (k : Nat) : State × List (Nat × Nat) :=
  let s := acc.1
  let v := s.sensor (288 + k)
  let x := s.stack k
  let hot := !v.failed && decide (1360 < v.reading)
  if hot = x.refresh2x then acc
  else (s.setStack k { x with refresh2x := hot }, acc.2 ++ [(pgHbm k, if hot then 8 else 16)])

/-- THERMAL_SAMPLE (R381 to R389): every sensor is sampled, each hub compares its readings, fast sampling is switched, and
a sensor at its shut-down level at two samples in a row shuts the device down. -/
def execThermalSample (readings : List (Nat × SensorRead)) (s : State) : Host.Outcome State Fault Refusal :=
  let gap := if s.therm.fast then 1 else 16
  let ids := allSensors.filter (fun i => readings.any (fun r => r.1 == i))
  let before := s
  let sensors := readings.foldl (fun t (i, r) =>
    if i < 308 then Tbl.set t i (takeSample (s.sensor i) r gap (shutLevel s i)) else t) s.therm.sensors
  let s1 := { s with therm := { s.therm with sensors := sensors } }
  let newFails := (ids.filter (fun i => (s1.sensor i).failed && !(before.sensor i).failed)).length
  let m := maxReading s1 allSensors
  let ok := working s1 allSensors
  let near := ok.any (fun i => decide (throttleLevel s1 i - 160 ≤ (s1.sensor i).reading))
  let far := ok.all (fun i => decide ((s1.sensor i).reading < throttleLevel s1 i - 240))
  let fast := if near then true else if far then false else s.therm.fast
  let s2 := { s1 with therm := { s1.therm with
    maxTemp := m.1, maxSensor := m.2, fast := fast, failedCnt := sat 9 (s1.therm.failedCnt + newFails) } }
  let ev0 : List (Nat × Nat) := (if 0 < newFails then [(pgTherm, 2 ^ 7)] else [])
    ++ (if fast && !s.therm.fast then [(pgTherm, 2 ^ 5)] else [])
    ++ (if !fast && s.therm.fast then [(pgTherm, 2 ^ 6)] else [])
  let r := (List.range 8).foldl (fun acc k => hubSample gap k acc) (s2, ev0)
  let r' := (List.range 8).foldl refreshSample r
  let s3 := raiseAll r'.1 r'.2
  let s4 := if s.shut then s3 else (List.range 8).foldl orderDivider s3
  match ok.filter (fun i => (s1.sensor i).shut && (before.sensor i).shut) with
  | [] => .next s4
  | i :: _ => if s.shut then .next s4 else .next (shutDown s4 i (s1.sensor i).reading false)

/-- THROTTLE_STEP (R386): every T_STEP the thermal divider of a hub steps down while a reading is at or above its throttle
level, up once every reading is below the level less the hysteresis. A hub without working core sensors holds 8 (R383). -/
def execThrottleStep (hub : Nat) (s : State) : Host.Outcome State Fault Refusal :=
  let h := s.hub hub
  if h.blind then .next s
  else
    let th := if h.hot then max 1 (effDiv s hub - 1) else if h.cool then min 16 (h.thDiv + 1) else h.thDiv
    let s1 := s.setHub hub { h with thDiv := th }
    let start := h.thDiv = 16 ∧ th < 16
    let s2 := if start then { s1 with therm := { s1.therm with thrCnt := sat 8 (s1.therm.thrCnt + 1) } } else s1
    let s3 := raiseAll s2 ((if start then [(pgTherm, 2 ^ 2)] else [])
      ++ (if h.thDiv < 16 ∧ th = 16 then [(pgTherm, 2 ^ 3)] else [])
      ++ (if start ∧ h.rateDiv = 16 then funcEvents s2 hub 6 else []))
    .next (orderDivider s3 hub)

/-- RATE_DIVIDER_STEP (R384): one step back towards 16 once every rise has stayed below half the limit for the hold, and
every reading lies below its throttle level less the hysteresis. -/
def execRateDividerStep (hub : Nat) (s : State) : Host.Outcome State Fault Refusal :=
  let h := s.hub hub
  if h.rateDiv < 16 ∧ 16 * riseHold s ≤ h.calm ∧ h.cool then
    .next (orderDivider (s.setHub hub { h with rateDiv := h.rateDiv + 1, holding := false }) hub)
  else .next s

/-- The cap in force in W: 0 none, otherwise held to 900 to 1,800 (R387). -/
def capWatts (s : State) : Nat := if s.therm.capW = 0 then 0 else max 900 (min 1800 s.therm.capW)

/-- POWER_AVERAGE (R387, R400): the mean of the millisecond's FC2 samples times the latest PC2 result, compared with the
cap; the divider steps every T_STEP. W are whole watts; the manual states no rounding (log entry 5). -/
def execPowerAverage (s : State) : Host.Outcome State Fault Refusal :=
  let c := s.conv
  let pc2 := (Tbl.getD c.chans 2 Chan.reset).code
  let num : Int := c.powSum * 50 * 64 * pc2
  let den : Int := (c.powCnt : Int) * 4096 * 2 ^ 23
  let up := Config.freeRoundUp s.freeCtr
  let avg : Nat := if c.powCnt = 0 then s.therm.avgW
    else (clampInt (num / den + (if up && decide (num % den ≠ 0) then 1 else 0)) 0 4095).toNat
  let cap := capWatts s
  let above := decide (0 < cap) && decide (0 < c.powCnt) && decide ((cap : Int) * den < num)
  let under := decide (cap = 0) || (decide (0 < c.powCnt) && decide (num * 100 < 98 * (cap : Int) * den))
  let due := decide (tStep s ≤ s.therm.capMs + 1)
  let d := s.therm.capDiv
  let highest := (List.range 8).foldl (fun m r => max m (effDiv s r)) 1
  let d' := if due && above then max 1 (highest - 1) else if due && under then min 16 (d + 1) else d
  let s1 := { s.nextFree with
    conv := { c with powSum := 0, powCnt := 0 }
    therm := { s.therm with avgW := avg, peakW := max s.therm.peakW avg, capDiv := d',
                            capMs := if due then 0 else s.therm.capMs + 1 } }
  let evs : List (Nat × Nat) := (if d = 16 ∧ d' < 16 then
      (pgTherm, 2 ^ 8) :: ((List.range 8).flatMap (fun r => funcEvents s1 r 7)).dedup else [])
    ++ (if d < 16 ∧ d' = 16 then [(pgTherm, 2 ^ 9)] else [])
  let s2 := raiseAll s1 evs
  .next (if s.shut then s2 else (List.range 8).foldl orderDivider s2)

/-- LEAK_DETECTED (R434, R439): a leak sensed for 1 ms shuts the device down and switches off the core, stack and array
write regulators; SHUT_LAST records sensor 510 and the device maximum, unless a shut-down came first. -/
def execLeakDetected (ext int : Bool) (s : State) : Host.Outcome State Fault Refusal :=
  let t := { s.therm with leakExt := ext, leakInt := int, leakLatched := s.therm.leakLatched || ext || int }
  let s1 := { s with therm := t }
  if !(ext || int) then .next s1 else .next (shutDown s1 510 t.maxTemp true)

/-- FLOW_UPDATE (R435): every 100 ms, pulses of the last second times 60 / K, in 0.001 L/min; the manual states no rounding
(log entry 5). VALID says that a pulse came in the last 2 s. -/
def execFlowUpdate (s : State) : Host.Outcome State Fault Refusal :=
  let e := s.therm.edges.take 20
  let pulses := (e.take 10).sum
  let k := max 1 (s.field pgTherm 0x074 0 16)
  let n := pulses * 60000
  let rate := n / k + (if Config.freeRoundUp s.freeCtr && decide (n % k ≠ 0) then 1 else 0)
  .next { s.nextFree with therm := { s.therm with
    flowRate := sat 16 rate, flowValid := decide (0 < e.sum), edges := 0 :: e.take 19 } }

/-- HBM_CE_RATE_CHECK (R425): corrected errors of the last second above CE_TH raise CE_HIGH; TH 0 acts as 1. -/
def execHbmCeRateCheck (stack : Nat) (s : State) : Host.Outcome State Fault Refusal :=
  let x := s.stack stack
  let s1 := s.setStack stack { x with ceSecond := 0 }
  .next (if max 1 (s.field (pgHbm stack) 0x058 0 16) < x.ceSecond then raise s1 (pgHbm stack) 1 else s1)

end Sys2Proof.Machine
end

