-- ==== Sys2Proof/Machine/BringUp.lean ====
section
/-! DEFINITION. Bring-up, firmware, and the resets of the device (R341, R348 to R365, R429, R430). An order records the
step and what its work finds; the step takes effect when it completes (R349). -/

namespace Sys2Proof.Machine

/-! ### Ordering a step (R348) -/

/-- Refuses an order: result ORDER, nothing runs. -/
def bringRefuse (s : State) (step : Nat) : State :=
  raise { s with bring := { s.bring with step := step, code := 4 } } pgBring 1

/-- Ports that the profile assigns: every port; the table of R305 leaves none out. -/
def assignedPorts (s : State) : List Nat := (List.range 12).filter (fun n => (s.port n).state != .disabled)

/-- What an accepted order does at once: step 3 enables the reference (R395), step 13 the link transmitters (R354), step 15
sets RUN (R355); the last two fail at once without what they require. -/
def bringStart (s : State) (step : Nat) : State :=
  match step with
  | 3 => { s with conv := { s.conv with en := true } }
  | 13 =>
    if (assignedPorts s).isEmpty then s
    else if !s.link.valid then bringEnd s 6 0 0
    else
      let s1 := (assignedPorts s).foldl (fun t n =>
        if (t.port n).state = .down then
          t.setPort n { t.port n with state := .training, trains := sat 16 ((t.port n).trains + 1) } else t) s
      { s1 with pins := { s1.pins with linkIdle := false } }
  | 15 =>
    if !s.stroke.epochWritten then bringEnd s 6 0 0
    else { s with stroke := { s.stroke with state := if s.stroke.state = .stopped then .waitEpoch else s.stroke.state } }
  | _ => s

/-- What an order finds that R349 has put back when its step does not complete. -/
def stepStart (s : State) : StepStart :=
  { convEn := s.conv.en, convReady := s.conv.ready, ports := s.ports, linkIdle := s.pins.linkIdle
    running := s.stroke.state != .stopped }

/-- An order of `BRING.STEP_CMD` (R348): ignored while a step is BUSY; accepted for the step above the last completed one,
which a step that timed out, failed or was aborted also is; in RETURNED no step beyond 7 (R378). -/
def bringOrder (s : State) (src step : Nat) (fast : Bool) (work : BringWork) : State :=
  orderWrite s src pgBring 0x040 (BitVec.ofNat 32 (step + (if fast then 16 else 0))) (fun t =>
    if t.bring.busy then t
    else if step = t.bring.lastDone + 1 ∧ ¬(t.sec.lcState = 2 ∧ 7 < step) then
      bringStart { t with bring := { t.bring with step := step, busy := true, fast := fast, work := some work, start := stepStart t } } step
    else bringRefuse t step)

def execBringStep1 (src : Nat) (fast : Bool) (work : BringWork) (s : State) : Host.Outcome State Fault Refusal :=
  .next (bringOrder s src 1 fast work)
def execBringStep2 (src : Nat) (fast : Bool) (work : BringWork) (s : State) : Host.Outcome State Fault Refusal :=
  .next (bringOrder s src 2 fast work)
def execBringStep3 (src : Nat) (fast : Bool) (work : BringWork) (s : State) : Host.Outcome State Fault Refusal :=
  .next (bringOrder s src 3 fast work)
def execBringStep4 (src : Nat) (fast : Bool) (work : BringWork) (s : State) : Host.Outcome State Fault Refusal :=
  .next (bringOrder s src 4 fast work)
def execBringStep5 (src : Nat) (fast : Bool) (work : BringWork) (s : State) : Host.Outcome State Fault Refusal :=
  .next (bringOrder s src 5 fast work)
def execBringStep6 (src : Nat) (fast : Bool) (work : BringWork) (s : State) : Host.Outcome State Fault Refusal :=
  .next (bringOrder s src 6 fast work)
def execBringStep7 (src : Nat) (fast : Bool) (work : BringWork) (s : State) : Host.Outcome State Fault Refusal :=
  .next (bringOrder s src 7 fast work)
def execBringStep8 (src : Nat) (fast : Bool) (work : BringWork) (s : State) : Host.Outcome State Fault Refusal :=
  .next (bringOrder s src 8 fast work)
def execBringStep9 (src : Nat) (fast : Bool) (work : BringWork) (s : State) : Host.Outcome State Fault Refusal :=
  .next (bringOrder s src 9 fast work)
def execBringStep10 (src : Nat) (fast : Bool) (work : BringWork) (s : State) : Host.Outcome State Fault Refusal :=
  .next (bringOrder s src 10 fast work)
def execBringStep11 (src : Nat) (fast : Bool) (work : BringWork) (s : State) : Host.Outcome State Fault Refusal :=
  .next (bringOrder s src 11 fast work)
def execBringStep12 (src : Nat) (fast : Bool) (work : BringWork) (s : State) : Host.Outcome State Fault Refusal :=
  .next (bringOrder s src 12 fast work)
def execBringStep13 (src : Nat) (fast : Bool) (work : BringWork) (s : State) : Host.Outcome State Fault Refusal :=
  .next (bringOrder s src 13 fast work)
def execBringStep14 (src : Nat) (fast : Bool) (work : BringWork) (s : State) : Host.Outcome State Fault Refusal :=
  .next (bringOrder s src 14 fast work)
def execBringStep15 (src : Nat) (fast : Bool) (work : BringWork) (s : State) : Host.Outcome State Fault Refusal :=
  .next (bringOrder s src 15 fast work)

/-! ### What each step establishes -/

/-- Step 1 (R350, R356, R389, R429, R434). -/
def finish1 (s : State) (failed : Option Nat) (hbm mesh arr : Bool) (age : Nat) (ext int : Bool) (ms : Nat) : State :=
  let s1 := { s with therm := { s.therm with leakExt := ext, leakInt := int, leakLatched := s.therm.leakLatched || ext || int } }
  let hot := (working s1 allSensors).any (fun i =>
    decide (shutLevel s1 i - hyst s1 ≤ (s1.sensor i).reading) && !(s1.sensor i).past.isEmpty)
  match failed with
  | some n => bringEnd s1 6 n ms
  | none =>
    if ext || int || hot then bringEnd s1 6 0xFFFF0001 ms
    else
      let b := s1.bring
      let hbmOk := b.keepHbm && hbm
      let b' := { b with
        hbmOk := hbmOk, meshOk := b.keepMesh && mesh && decide (age < 720), arrayOk := hbmOk && b.keepArray && arr,
        bistAge := sat 16 age,
        boot := if hbmOk then b.retained else [], retained := [] }
      bringEnd { s1 with bring := b'
                         pins := { s1.pins with health := true, faultN := true, selfTested := true, regulators := true } }
        1 0 ms

/-- The precision channels that step 3 converts (R397). -/
def stepThreeChans : List Nat := [0, 2, 4, 5, 6, 7, 8, 9]

/-- Step 3 (R350, R397): the channels are converted in order and checked against their limits. -/
def finish3 (s : State) (codes : List (Nat × Int)) (ms : Nat) : State :=
  let s0 := refReady s
  let s1 := stepThreeChans.foldl (fun t n =>
    match codes.find? (fun c => c.1 == n) with
    | some (_, raw) => writeResult t n (corrected (t.chan n) raw) (stampNow t).1 (stampNow t).2
    | none => t) s0
  match stepThreeChans.find? (fun n => (s1.chan n).limLo || (s1.chan n).limHi || !(codes.any (fun c => c.1 == n))) with
  | some n => bringEnd s1 6 n ms
  | none => bringEnd s1 1 0 ms

/-- The nominal frequency of a domain in kHz: CCLK 1.7 GHz, STKCLK 156.25 MHz; the manual gives no other (log entry 3). -/
def nominalKhz (s : State) (d : Nat) : Nat :=
  if d < 8 then 1700000 else if d = 21 then 156250 else s.freeNat (2 ^ 21)

/-- Locks one domain (R351, R365). -/
def lockDomain (s : State) (d t : Nat) : State :=
  let x := Tbl.getD s.clock.dom d Domain.reset
  let s1 := { s with clock := { s.clock with
    en := s.clock.en ||| 2 ^ d, lock := s.clock.lock ||| 2 ^ d,
    dom := Tbl.set s.clock.dom d { x with freqKhz := nominalKhz s d, lockT := min t 127 } } }
  let s2 := if d = 21 then { s1 with stroke := { s1.stroke with refOk := true, refTicks := 0 } } else s1
  raise s2.nextFree pgClock 0

/-- Step 4 (R351): ascending domain index, each locked before the next; a domain not locked within 10 ms fails the step. -/
def finish4 (times : List (Nat × Option Nat)) (ms : Nat) : List Nat → State → State
  | [], s => bringEnd s 1 0 ms
  | d :: rest, s =>
    match times.find? (fun t => t.1 == d) with
    | some (_, some t) => if t ≤ 100 then finish4 times ms rest (lockDomain s d t)
        else bringEnd { s with clock := { s.clock with en := s.clock.en ||| 2 ^ d } } 6 d ms
    | _ => bringEnd { s with clock := { s.clock with en := s.clock.en ||| 2 ^ d } } 6 d ms

/-- The 23 domains that step 4 enables. -/
def stepFourDomains : List Nat := (List.range 25).filter (fun d => d != 16 && d != 20)

/-- Step 5 (R352): states from the fuse map and the remap record, or as retained under MESH_OK. -/
def finish5 (s : State) (ms : Nat) : State :=
  let s1 :=
    if s.bring.meshOk then s
    else
      let s0 := allPcores.foldl (fun t c =>
        let x := (t.pcore c).afterCold
        if t.fuseBad.contains c then t.setPcore c { x with kind := .bad }
        else match recordedNumber t c with
          | some l => giveNumber (t.setPcore c { x with kind := .spare }) c l
          | none => t.setPcore c { x with kind := .spare }) { s with remap := [] }
      s0
  let good := goodCores s1
  bringEnd { s1 with mesh := { s1.mesh with good := good, spareTotal := good - 1024 } } 1 0 ms

/-- Step 6 (R369): the preferred slot, or the other; the core image is the verified slot's. -/
def finish6 (s : State) (ms : Nat) : State :=
  let okA := verify s 1 s.sec.slotA == 0
  let okB := verify s 1 s.sec.slotB == 0
  let pref := s.sec.preferB
  let first := if pref then okB else okA
  let second := if pref then okA else okB
  let useB := if first then pref else !pref
  let bs := if useB then s.sec.slotB else s.sec.slotA
  let sec1 := { s.sec with
    aValid := if !pref || !first then okA else s.sec.aValid,
    bValid := if pref || !first then okB else s.sec.bValid }
  if !first && !second then bringEnd { s with sec := sec1 } 6 0 ms
  else
    let img : FwBank := { version := mfVersion bs, mfDigest := mfDigest bs, image := coreImage bs }
    bringEnd { s with sec := { sec1 with bootedB := useB, degraded := !first }
                      bring := { s.bring with slotB := useB, coreImage := img } }
      (if first then 1 else 3) 0 ms

/-- Step 7 (R350, R425): every stack trained, or restored under HBM_OK. -/
def finish7 (s : State) (trained : List (Nat × Nat)) (ms : Nat) : State :=
  let s1 := (List.range 8).foldl (fun t k =>
    match trained[k]? with
    | some (ch, rate) =>
      if 0 < ch then t.setStack k { t.stack k with trained := true, restored := s.bring.hbmOk, selfRefresh := false,
                                                   chanUp := min ch 32, rate := min rate 255 }
      else t
    | none => t) s
  match (List.range 8).find? (fun k => !(s1.stack k).trained) with
  | some k => bringEnd (raise s1 (pgHbm k) 2) 6 k ms
  | none => bringEnd s1 1 0 ms

/-- Cores that BIST finds bad, and those it passes (R352); FENCED cores are tested too. -/
def bistStates (s : State) (bad : List Nat) : State :=
  let tested := allPcores.filter (fun c => (s.pcore c).kind != .bad)
  let failing := tested.filter (fun c => bad.contains c)
  let s1 := tested.foldl (fun t c =>
    if bad.contains c || (t.pcore c).kind == .active then t else setKind t c .spare) s
  failing.foldl (fun t c => if (t.pcore c).kind = .active then t else setKind t c .bad) s1

/-- Cores BIST finds bad that hold a number pass it on; the bad ones are left out of the pool first (R352). -/
def bistReplace (s : State) (bad : List Nat) : State :=
  (coresIn s .active).foldl (fun t c => if bad.contains c then passNumber t c .bad else t) s

/-- Step 8 (R350, R352, R357). -/
def finish8 (s : State) (bad : List Nat) (ms : Nat) : State :=
  if s.bring.fast && s.bring.meshOk then bringEnd s 2 0 ms
  else
    let s1 := writeRecord (bistReplace (bistStates s bad) bad)
    let good := goodCores s1
    let s2 := { s1 with mesh := { s1.mesh with good := good, spareTotal := good - 1024 }
                        bring := { s1.bring with bistAge := 0 } }
    if good < 1024 then bringEnd s2 6 good ms
    else if good < 1088 then bringEnd s2 3 good ms
    else bringEnd s2 1 0 ms

/-- The ports of a router that come up (R11, R12, R125): north, south, east, west and local, those of the edge that lead out of the mesh
too, but for directions that fail and ports towards a router that fails. -/
def meshPorts (bad : List Nat) (down : List (Nat × Nat)) (c : Nat) : Nat :=
  ((List.range 5).filter (fun q => !down.contains (c, q) && !((meshNeighbour c q).any (fun n => bad.contains n)))).foldl
    (fun m q => m + 2 ^ q) 0

/-- `MESH.LINKS_DOWN`: the directions between two routers that are down. -/
def countLinksDown (s : State) : Nat :=
  sat 12 (allPcores.flatMap (fun c => (List.range 4).filter (fun q => (meshNeighbour c q).isSome && !portIsUp s c q))).length

/-- Step 9 skipped: routers, ports and faults are those of the retained copy (R352, R357). -/
def restoreRouters (s : State) : State :=
  let s1 := { s with
    pcores := Tbl.mapVal (fun _ c => { c with rtrUp := c.rtrKept, portUp := c.portKept, rtrFault := c.faultKept }) s.pcores }
  { s1 with mesh := { s1.mesh with linksDown := countLinksDown s1 } }

/-- Step 9 (R352): a core whose router fails becomes BAD and is replaced; a failing link direction is marked down; the
route tables are built. -/
def finish9 (s : State) (bad : List Nat) (down : List (Nat × Nat)) (connected : Bool) (routes : List RouteEntry) (ms : Nat) : State :=
  if s.bring.fast && s.bring.meshOk then bringEnd (restoreRouters s) 2 0 ms
  else
    let s1 := allPcores.foldl (fun t c =>
      if bad.contains c then t else t.setPcore c { t.pcore c with rtrUp := true, portUp := meshPorts bad down c }) s
    let failing := bad.filter (fun c => decide (c < numPcores))
    let s2 := failing.foldl (fun t c => if (t.pcore c).kind = .active then t else setKind t c .bad) s1
    let s3 := failing.foldl (fun t c => if (t.pcore c).kind = .active then passNumber t c .bad else t) s2
    let s4 := failing.foldl (fun t c => t.setPcore c { t.pcore c with rtrUp := false, portUp := 0, rtrFault := true }) s3
    let s5 := buildRoutes { writeRecord s4 with mesh := { s4.mesh with linksDown := countLinksDown s4 } } routes
    if connected then bringEnd s5 1 0 ms else bringEnd s5 6 0 ms

/-- Fences a core in step 10: its number passes to a spare that holds the image, or that receives it (R358). -/
def fwFence (s : State) (lacks : List Nat) (c : Nat) : State :=
  let x := s.pcore c
  let s1 := raise (setKind s c .fenced) pgBring 2
  let s2 := { s1 with bring := { s1.bring with fwFenced := sat 8 (s1.bring.fwFenced + 1) } }
  if x.kind = .active then
    let cands := (coresIn s2 .spare).filter (fun sp => !lacks.contains sp)
    match chooseSpareFrom cands c with
    | some sp => noteSubst (giveNumber s2 sp x.lcore) sp c
    | none => s2.setRemap x.lcore { s2.remapOf x.lcore with mode := .unused }
  else s2

/-- Step 10 (R358): cores that lack a chunk after round 8 are fenced, then spares that fail their own repair rounds. -/
def finish10 (s : State) (rounds : List (List (Nat × Nat))) (spareLacks : List Nat) (ms : Nat) : State :=
  let used := rounds.length - 1
  let last := if 9 ≤ rounds.length then (rounds.getD 8 []).map (·.1) else []
  let holders := allPcores.filter (fun c => (s.pcore c).kind == .active || (s.pcore c).kind == .spare)
  let lack := holders.filter (fun c => last.contains c)
  let s0 := { s with bring := { s.bring with fwRounds := min used 8, fwMissing := 0, fwFenced := 0 } }
  let s1 := (lack ++ (spareLacks.filter (fun c => holders.contains c && !lack.contains c))).foldl
              (fun t c => fwFence t (lack ++ spareLacks) c) s0
  let v := s.bring.coreImage.version
  let s2 := allPcores.foldl (fun t c =>
    if (t.pcore c).kind = .active ∨ (t.pcore c).kind = .spare then t.setPcore c { t.pcore c with fwVersion := v } else t) s1
  let complete := (allPcores.filter (fun c => (s2.pcore c).kind == .active || (s2.pcore c).kind == .spare)).length
  if complete < 1024 then bringEnd s2 6 0 ms
  else match (lack ++ spareLacks).getLast? with
    | some c => bringEnd s2 3 c ms
    | none => bringEnd s2 1 0 ms

/-- Step 11 (R43): every record is loaded, T_CAL with it; TRIM_INVALID is raised for arrays without a valid trim record. -/
def finish11 (s : State) (bad : List Nat) (unreadable : Bool) (ms : Nat) : State :=
  if unreadable then bringEnd s 6 0 ms
  else
    let s0 := { s with pcores := Tbl.mapVal (fun _ c => { c with tCal := c.tCalRec }) s.pcores }
    let s1 := bad.foldl (fun t k => t.setArray k { t.array k with trimBad := true }) s0
    let s2 := { s1 with bring := { s1.bring with trimsLoaded := true } }
    if bad.isEmpty then bringEnd s2 1 0 ms
    else bringEnd (raise s2 pgCal 2) 3 bad.length ms

/-- The RESIDENT arrays whose record names a partition, in key order (R278). -/
def residentOf (s : State) (p : Nat) : List Nat :=
  (s.arrays.filter (fun (_, a) => a.resState == .resident && a.recOk && a.resPart == p)).map (·.1)

/-- Arrays of partitions with a boot image (R353). -/
def bootArrays (s : State) : List Nat := s.bring.boot.flatMap (fun (p, _) => residentOf s p)

/-- Residency records whose check word does not match (R278). -/
def badRecords (s : State) (ks : List Nat) : State := ks.foldl (fun t k => t.setArray k { t.array k with recOk := false }) s

/-- The programmings of a spare that took the number of core `f` in this bring-up: an array whose record does not match the tile that the
number calls for there, by the records of `f` for a partition with a boot image (R283, R352; the example of R358). -/
def substProgs (s : State) (sp f : Nat) : List Prog :=
  (List.range 32).filterMap (fun j =>
    let a := s.array (32 * f + j)
    let b := s.array (32 * sp + j)
    match Tbl.get? s.bring.boot a.resPart with
    | some im =>
      if a.resState = .resident ∧ a.recOk ∧ a.edition = im.edition
          ∧ ¬(b.resState = .resident ∧ b.recOk ∧ b.resPart = a.resPart ∧ b.edition = a.edition ∧ b.tile = a.tile) then
        some (newProg (32 * sp + j) .verify a.resPart a.tile false)
      else none
    | none => none)

/-- Step 12 (R283, R353, R357): verification failures raise VERIFY_FAIL and are queued for reprogramming, and so are the arrays of
spares that took a number in this bring-up. -/
def finish12 (s : State) (bad : List Nat) (ms : Nat) : State :=
  let vbits := s.bring.boot.foldl (fun m (p, _) => m ||| 2 ^ p) s.bring.verified
  let s0 := { s with bring := { s.bring with verified := vbits } }
  let bad' := if s.bring.fast && s.bring.arrayOk then [] else bad
  let s1 := s.bring.boot.foldl (fun t (p, im) => (residentOf t p).foldl (fun u k =>
    if (u.array k).edition = im.edition ∧ !bad'.contains k then u.setArray k { u.array k with verified := true } else u) t) s0
  if s.bring.fast && s.bring.arrayOk then bringEnd s1 2 0 ms
  else
    let fails := s.bring.boot.flatMap (fun (p, im) => (s.arrays.filter (fun (k, a) =>
      a.resPart == p && ((a.resState == .resident && (!a.recOk || a.edition != im.edition || bad.contains k))
        || a.resState == .programming))).map (·.1))
    let subs := (s.bring.subst.flatMap (fun (sp, f) => substProgs s sp f)).filter (fun q => !fails.contains (32 * q.pcore + q.array))
    let progs := fails.map (fun k => newProg k .verify (s1.array k).resPart (s1.array k).tile false) ++ subs
    let s2 := progs.foldl queueProg s1
    bringEnd (if progs.isEmpty then s2 else raise s2 pgWeight 5) 1 0 ms

/-- Step 13 (R354): the assigned ports that are not UP. -/
def finish13 (s : State) (ms : Nat) : State :=
  let left := (assignedPorts s).filter (fun n => (s.port n).state != .up)
  if left.isEmpty then bringEnd s 1 0 ms
  else bringEnd s 3 (left.foldl (fun m n => m ||| 2 ^ n) 0) ms

/-- A boot image is freed that no partition has made its CURRENT: the arrays that name the partition keep their records and are verified
again once a RELOAD supplies the image (R353). -/
def freeBoot (s : State) (p : Nat) : State :=
  { s with
    arrays := Tbl.mapVal (fun _ a => if a.resPart = p then { a with verified := false } else a) s.arrays
    bring := { s.bring with boot := Tbl.erase s.bring.boot p } }

/-- Step 14 (R353): boot images that no CREATE has claimed are freed. -/
def finish14 (s : State) (ms : Nat) : State :=
  if (List.range 32).any (fun p => (s.part p).order == some .create) then bringEnd s 6 0 ms
  else bringEnd ((s.bring.boot.map (·.1)).foldl freeBoot s) 1 0 ms

/-- Step 15 (R355, R362): complete when the time base is LOCKED; without REFCLK it fails. -/
def finish15 (s : State) (ms : Nat) : State :=
  if !s.stroke.refOk then bringEnd s 6 0 ms
  else if s.stroke.state = .locked then bringEnd s 1 0 ms
  else s

/-- BRING_STEP_COMPLETE (R349): the running step ends with what its work found. -/
def execBringStepComplete (ms : Nat) (s : State) : Host.Outcome State Fault Refusal :=
  if !s.bring.busy then .next s
  else .next (match s.bring.step, s.bring.work with
    | 1, some (.selfTest f h m a age e i) => finish1 s f h m a age e i ms
    | 2, some (.fuses (some b)) => bringEnd s 6 b ms
    | 3, some (.converter codes badRec) => finish3 (badCalRecords s badRec) codes ms
    | 4, some (.plls times) => finish4 times ms stepFourDomains s
    | 5, some (.fuses (some b)) => bringEnd s 6 b ms
    | 5, _ => finish5 s ms
    | 6, _ => finish6 s ms
    | 7, some (.hbm tr) => finish7 s tr ms
    | 8, some (.bist bad) => finish8 s bad ms
    | 9, some (.mesh bad down conn routes) => finish9 s bad down conn routes ms
    | 10, some (.broadcast rounds lacks) => finish10 s rounds lacks ms
    | 11, some (.trims bad un) => finish11 s bad un ms
    | 12, some (.verify bad badRec) => finish12 (badRecords s badRec) bad ms
    | 13, _ => finish13 s ms
    | 14, _ => finish14 s ms
    | 15, _ => finish15 s ms
    | _, _ => bringEnd s 1 0 ms)

/-- Cores that a step has found bad are BAD, and those that hold a number pass it on (R349, R352). -/
def keepBad (s : State) (bad : List Nat) : State :=
  let found := bad.filter (fun c => decide (c < numPcores))
  let s1 := found.foldl (fun t c => if (t.pcore c).kind = .active then t else setKind t c .bad) s
  found.foldl (fun t c => if (t.pcore c).kind = .active then passNumber t c .bad else t) s1

/-- What a step that does not complete leaves (R349): cores that steps 8, 9 and 10 have found BAD or fenced keep that state; what
the order had begun is as the order found it. -/
def bringUndo (s : State) : State :=
  let b := s.bring.start
  match s.bring.step, s.bring.work with
  | 3, _ => { s with conv := { s.conv with en := b.convEn, ready := b.convReady } }
  | 8, some (.bist bad) => keepBad s bad
  | 9, some (.mesh bad _ _ _) => keepBad s bad
  | 10, some (.broadcast rounds lacks) =>
    let last := (if 9 ≤ rounds.length then (rounds.getD 8 []).map (·.1) else []).dedup
    (last.filter (fun c => (s.pcore c).kind == .active || (s.pcore c).kind == .spare)).foldl (fun t c => fwFence t (last ++ lacks) c) s
  | 13, _ => { s with ports := b.ports, pins := { s.pins with linkIdle := b.linkIdle } }
  | 15, _ => { s with stroke := { s.stroke with state := if b.running then s.stroke.state else .stopped } }
  | _, _ => s

/-- BRING_STEP_TIMEOUT (R349): code TIMEOUT. Step 13 has no timeout: it ends at 2 s with what is up (R350, R354). -/
def execBringStepTimeout (ms : Nat) (s : State) : Host.Outcome State Fault Refusal :=
  .next (if s.bring.busy && s.bring.step != 13 then bringEnd (bringUndo s) 5 0 ms else s)

/-- A PF FLR during a step (R362): code ABORTED. -/
def bringAbort (s : State) : State := if s.bring.busy then bringEnd (bringUndo s) 7 0 s.bring.elapsed else s

/-! ### Live update (R359 to R361) -/

def State.setFwup (s : State) (p : Nat) (f : Fwup) : State :=
  { s with bring := { s.bring with fwup := Tbl.set s.bring.fwup p f } }

/-- Records the last order's partition and result. -/
def fwupResult (s : State) (p r : Nat) : State :=
  let s1 := s.setFwup p { fwupOf s p with result := r }
  { s1 with bring := { s1.bring with fwupPart := p, fwupResult := r } }

/-- An order of `BRING.FWUP_CMD`. -/
def fwupOrder (s : State) (src p op : Nat) (act : State → State) : State :=
  orderWrite s src pgBring 0x078 (BitVec.ofNat 32 (p % 32 + 32 * op)) act

/-- FWUP_PREPARE (R359, R361). -/
def execFwupPrepare (src part : Nat) (bundle : Option (List Byte)) (s : State) : Host.Outcome State Fault Refusal :=
  .next (fwupOrder s src part 1 (fun t =>
    if (t.part part).state = .none then fwupResult t part 7
    else if !t.bring.doneMap.testBit 15 ∨ fwupRuns t part then fwupResult t part 3
    else match bundle with
      | none => raise (fwupResult (t.setFwup part { fwupOf t part with state := 4 }) part 5) pgBring 5
      | some bs =>
        let r := verify t 2 bs
        if r = 0 then
          fwupResult (t.setFwup part { fwupOf t part with
            state := 1, round := 0, pcore := 0,
            cand := some { version := mfVersion bs, mfDigest := mfDigest bs, image := coreImage bs } }) part 0
        else
          raise (fwupResult (t.setFwup part { fwupOf t part with state := 4 }) part (if r = 2 then 2 else 1)) pgBring 5))

/-- FWUP_READY (R359): every core holds the whole image, or after round 8 the update fails with CHUNK. -/
def execFwupReady (part : Nat) (rounds : List (List (Nat × Nat))) (s : State) : Host.Outcome State Fault Refusal :=
  let f := fwupOf s part
  if f.state ≠ 1 then .next s
  else
    let lackers := (rounds.take 9).flatMap (fun r => r.map (·.1))
    let f1 := { f with round := min (rounds.length - 1) 8, pcore := lackers.getLast?.getD f.pcore }
    if 9 ≤ rounds.length ∧ rounds.getD 8 [] ≠ [] then
      .next (raise (fwupResult (s.setFwup part { f1 with state := 4, cand := none }) part 6) pgBring 5)
    else .next (raise (s.setFwup part { f1 with state := 2, standby := f.cand, cand := none }) pgBring 3)

/-- SWITCH and REVERT: the stroke number in `FWUP_AT` must be at least 2 above the current one (R360, R361). -/
def fwupArm (s : State) (part : Nat) (revert ok : Bool) : State :=
  let at_ := s.pair pgBring 0x07C 0x080
  if (s.part part).state = .none then fwupResult s part 7
  else if !ok then fwupResult s part 3
  else if at_ < s.stroke.number + 2 then fwupResult s part 4
  else fwupResult (s.setFwup part { fwupOf s part with state := 3, at_ := at_, revert := revert }) part 0

/-- FWUP_SWITCH (R360, R361): only while READY. -/
def execFwupSwitch (src part : Nat) (s : State) : Host.Outcome State Fault Refusal :=
  .next (fwupOrder s src part 2 (fun t => fwupArm t part false ((fwupOf t part).state == 2)))

/-- FWUP_REVERT (R360): swaps the banks back; it needs a standby bank and no update in progress. -/
def execFwupRevert (src part : Nat) (s : State) : Host.Outcome State Fault Refusal :=
  .next (fwupOrder s src part 4 (fun t =>
    fwupArm t part true (!fwupRuns t part && (fwupOf t part).standby.isSome)))

/-- Ends an update as ABORT does (R360, R361). -/
def fwupAbort (s : State) (p : Nat) : State :=
  if fwupRuns s p then s.setFwup p { fwupOf s p with state := 0, standby := none, cand := none } else s

/-- FWUP_ABORT (R360): discards the standby content, before the switch. -/
def execFwupAbort (src part : Nat) (s : State) : Host.Outcome State Fault Refusal :=
  .next (fwupOrder s src part 3 (fun t => fwupResult (fwupAbort t part) part 0))

/-- FIRMWARE_BANK_SWITCH (R360): at the first boundary at or after `FWUP_AT` at which the job's step commits and no step
is held, or with no plan loaded at the next boundary. -/
def execFirmwareBankSwitch (part : Nat) (s : State) : Host.Outcome State Fault Refusal :=
  let f := fwupOf s part
  let x := s.part part
  let free := match x.plan, x.job with
    | some _, some j => decide (f.at_ ≤ s.stroke.number) && j.ordersDue && j.hold.isNone
    | _, _ => true
  if f.state ≠ 3 ∨ !free ∨ s.stroke.count ≠ 0 then .next s
  else
    let f' := { f with state := 0, active := f.standby, standby := some (activeBank s part) }
    .next (raise (s.setFwup part f') pgBring 4)

/-! ### Resets of the device (R341, R351, R429, R430, R438, R439) -/

/-- PERST_N_ASSERT (R341, R362, R429): a warm device reset; HEALTH stops, FAULT_N is asserted, the links idle. The
regulators stay as they are (R439). -/
def execPerstNAssert (s : State) : Host.Outcome State Fault Refusal :=
  if !s.pins.pwrGood then .next { s with pins := { s.pins with perstN := false } }
  else
    let s1 := warmReset s
    .next { s1 with pins := { s1.pins with perstN := false, pcieUp := false, health := false, faultN := false,
                                           linkIdle := true, regulators := s.pins.regulators,
                                           selfTested := s.pins.selfTested } }

/-- PERST_N_DEASSERT (R351): the always-on block starts the PLL of PCLK and the PCIe link trains. FAULT_N, asserted while PERST_N was, is
released where step 1 has completed since power came and no shut-down or LOCK_LOST stop lasts (R429; log entry 75). -/
def execPerstNDeassert (s : State) : Host.Outcome State Fault Refusal :=
  if s.pins.pwrGood then
    .next { s with pins := { s.pins with perstN := true, pcieUp := !s.shut,
                                         faultN := s.pins.selfTested && !s.shut && !s.bring.lockStop }
                   clock := { s.clock with en := s.clock.en ||| 0x110000, lock := s.clock.lock ||| 0x110000 } }
  else .next { s with pins := { s.pins with perstN := true } }

/-- WARM_DEVICE_RESET (R341): a hot reset or the loss of the PCIe link. FAULT_N stays asserted only until step 1 has once
completed, or while PERST_N is asserted (R429). -/
def execWarmDeviceReset (s : State) : Host.Outcome State Fault Refusal :=
  if !s.pins.pwrGood then .next s
  else
    let s1 := warmReset s
    .next { s1 with pins := { s1.pins with faultN := s.pins.perstN && s.pins.selfTested, health := false,
                                           regulators := s.pins.regulators, selfTested := s.pins.selfTested } }

/-- POWER_ON (R341, R430): a cold device reset. -/
def execPowerOn (s : State) : Host.Outcome State Fault Refusal := .next (coldReset s)

/-- POWER_LOSS (R430): the module is off until power returns; every marker is invalid. -/
def execPowerLoss (s : State) : Host.Outcome State Fault Refusal :=
  let s1 := coldReset s
  .next { s1 with
    arrays := Tbl.mapVal (fun _ a => { a with eval := none }) s1.arrays
    pins := { s1.pins with pwrGood := false, pcieUp := false, regulators := false } }

/-- Every service stops as a warm device reset stops it, with every retention marker invalid (R351). -/
def lockStopNow (s : State) : State :=
  let s1 := loseService s
  { s1 with bring := { s1.bring with hbmOk := false, meshOk := false, arrayOk := false, retained := [], lockStop := true }
            pins := { s1.pins with health := false } }

/-- LOCK_LOST (R351): after step 4, a loss of lock asserts FAULT_N; service stops at the next boundary, or at once while
strokes are stopped. -/
def execLockLost (domain : Nat) (s : State) : Host.Outcome State Fault Refusal :=
  if !s.bring.doneMap.testBit 4 ∨ 25 ≤ domain ∨ !s.clock.lock.testBit domain then .next s
  else
    let x := Tbl.getD s.clock.dom domain Domain.reset
    let s1 := { s with
      clock := { s.clock with lock := s.clock.lock - 2 ^ domain,
                              dom := Tbl.set s.clock.dom domain { x with losses := sat 4 (x.losses + 1) } }
      pins := { s.pins with faultN := false }
      bring := { s.bring with lockStop := true } }
    let s2 := raise s1 pgClock 1
    .next (if strokesRun s2 then s2 else lockStopNow s2)

end Sys2Proof.Machine
end

