-- ==== Sys2Proof/Machine/Fencing.lean ====
section
/-! DEFINITION. Fencing, replacement, hosting and migration of cores (R118 to R124), and the orders of `MESH.FENCE_CMD` (R126). -/

namespace Sys2Proof.Machine

/-! ### Stopping a core (R118, R119) -/

/-- Logical cores whose plan a physical core runs (R116). -/
def runsOn (s : State) (c : Nat) : List Nat :=
  (s.remap.filter (fun (_, r) =>
    match r.mode with
    | .unused => false
    | .hosted => r.host == c
    | _ => r.pcore == c)).map (·.1)

/-- Results of the running evaluations of a physical core's arrays are discarded (R29, R118). -/
def discardEvals (s : State) (c : Nat) : State :=
  (List.range 32).foldl (fun t n =>
    match (t.array (32 * c + n)).eval with
    | none => t
    | some e => t.setArray (32 * c + n) { t.array (32 * c + n) with eval := some { e with wanted := false } }) s

/-- The scribe of logical core `l` issues no further instruction; a step in progress is suspect for every request of its job
(R118, R119). -/
def stopScribe (u : Nat → FaultUnit) (c : Nat) (s : State) (l : Nat) : State :=
  let sc := s.scribe l
  let p := sc.part
  match s.job p with
  | none => s
  | some j =>
    if sc.mode = .idle then s
    else
      let s1 := s.setScribe l { sc with mode := .stopped, atBar := false }
      let s2 := if j.inStep then failCheck s1 p (mkSuspect s1 l 14 (u c) .all sc.pc 0) else s1
      tryBar s2 p

/-- Forgets the queued programmings of a physical core. -/
def dropProgs (s : State) (c : Nat) : State :=
  { s with weight := { s.weight with queue := s.weight.queue.filter (fun q => q.pcore != c) } }

/-! ### Spares that take over (R117, R120, R124) -/

/-- The image that a taking spare is programmed from: NEXT during an offline change, otherwise CURRENT (R120, R290). -/
def takingImage (x : Part) : Option (Image × Bool) :=
  match x.change with
  | .offline => x.nextImage.map (fun im => (im, true))
  | _ => x.curImage.map (fun im => (im, false))

/-- Queues the programming of the tiles that the place of logical core `l` calls for, on physical core `sp`. -/
def programCore (s : State) (sp p l : Nat) (why : ProgWhy) : State :=
  match takingImage (s.part p) with
  | none => s
  | some (im, nx) =>
    (List.range 32).foldl (fun t n =>
      match im.tileAt (coreIndex t p l) n with
      | none => t
      | some tile => queueProg t (newProg (32 * sp + n) why p tile nx)) s

/-- A core that leaves the pool for good: the shadows that it holds are gone (R287). -/
def dropShadows (s : State) (c : Nat) : State :=
  { s with weight := { s.weight with shadows := s.weight.shadows.filter (fun x => x.1 / 32 != c) } }

/-- A spare that is taken programs no further shadow: one under way becomes none when it ends. The shadows that it holds are dropped at
the next boundary (R287). -/
def stopShadows (s : State) (c : Nat) : State :=
  { s with weight := { s.weight with
      queue := (s.weight.queue.filter (fun q => !(q.why == .shadow && q.pcore == c && !q.started))).map (fun q =>
        if q.why = .shadow ∧ q.pcore = c then { q with shadowOf := none } else q) } }

/-- The order in progress is on physical core `c`. -/
def orderOn (s : State) (c : Nat) : Bool := s.mesh.fenceBusy && s.mesh.fencePcore == c

/-- Takes a spare, the one nearest to `near`, for the logical core of physical core `c`: it enters TAKING and is programmed, and
`MESH.FENCE_STAT` shows it where the order in progress is on `c`; none where none is free. -/
def takeSpare (s : State) (near c : Nat) (why : TakeWhy) : Option (Nat × State) :=
  match chooseSpare s near with
  | none => none
  | some sp =>
    let x := s.pcore c
    let s1 := stopShadows s sp
    let s2 := s1.setPcore sp { s1.pcore sp with
      kind := .taking, lcore := x.lcore, part := x.part, takeFrom := c, takeWhy := why }
    let s3 := { s2 with mesh := { s2.mesh with fenceSpare := if orderOn s c then sp else s2.mesh.fenceSpare } }
    some (sp, programCore s3 sp x.part x.lcore (if why = .replace then .takeover else .migration))

/-- The spare that a migration of physical core `c` is programming (R124). -/
def migrationSpare (s : State) (c : Nat) : Option Nat :=
  (coresIn s .taking).find? (fun t => (s.pcore t).takeFrom == c && (s.pcore t).takeWhy != .replace)

def setNext (s : State) (l pc : Nat) (mode : RemapMode) : State :=
  s.setRemap l { s.remapOf l with next := some (pc, mode, pc) }

/-- The logical core becomes HOSTED at the next boundary (R121). -/
def hostNext (s : State) (l : Nat) : State := setNext s l (s.remapOf l).pcore .hosted

/-- `MESH.FENCE_STAT` ends the order in progress. -/
def endOrder (s : State) (result : Nat) : State := { s with mesh := { s.mesh with fenceBusy := false, fenceResult := result } }

/-- The spare of a migration that goes no further returns to the pool. -/
def releaseSpare (s : State) (sp : Nat) : State := dropProgs (setKind s sp .spare) sp

/-- A core's logical number passes on: to the spare of a migration under way, to a new spare, or to a host (R120, R121). `org` is the core
that the spares stand in for: a spare that fails while TAKING stands in for another (R123). An order to replace a core ends with
RESULT 2 where no spare is free (log entry 95). -/
def passOn (s : State) (c org : Nat) (replace : Bool) : State :=
  let l := (s.pcore c).lcore
  if !replace then
    hostNext (match migrationSpare s c with
      | some sp => releaseSpare s sp
      | none => s) l
  else
    match migrationSpare s c with
    | some sp => setNext (s.setPcore sp { s.pcore sp with takeWhy := .replace }) l sp .fairCopy
    | none =>
      match takeSpare s c org .replace with
      | some (sp, t) => setNext t l sp .fairCopy
      | none =>
        let t := if orderOn s org && s.mesh.fenceOp == 2 then endOrder s 2 else s
        hostNext (raise t pgMesh 6) l

/-- The spare `c` of a migration fails: a new spare is chosen, or the migration is dropped and RESULT reads 2 (R123). -/
def migrationFails (s : State) (c : Nat) : State :=
  let x := s.pcore c
  match takeSpare s x.takeFrom x.takeFrom x.takeWhy with
  | some (_, t) => t
  | none =>
    if orderOn s x.takeFrom then endOrder s 2 else { s with mesh := { s.mesh with fenceResult := 2 } }

/-- A core that the fence takes with it: its SRAM is kept and cannot be reached (R118). -/
def keepSram (s : State) (c : Nat) : State :=
  s.setPcore c { s.pcore c with sramKept := (s.scribe (s.pcore c).lcore).sram }

/-- CORE_FENCED, with what `MESH.FAULT_LAST` shows of a core (R118, R126). -/
def noteFenced (s : State) (c : Nat) : State :=
  let s1 := setKind s c .fenced
  raise { s1 with mesh := { s1.mesh with faultPcore := c, faultPort := 4, faultKind := 2 } } pgMesh 3

/-- Fences a SPARE, ACTIVE or TAKING core (R118), with or without replacement (R120, R121, R123). `u` names the unit that the step's
suspicion implicates. -/
def fenceWith (u : Nat → FaultUnit) (s : State) (c : Nat) (replace : Bool) : State :=
  let x := s.pcore c
  match x.kind with
  | .bad => s
  | .fenced => s
  | .spare => dropShadows (dropProgs (noteFenced s c) c) c
  | .active =>
    let ls := runsOn s c
    let s1 := dropProgs (noteFenced (keepSram (ls.foldl (stopScribe u c) (discardEvals s c)) c) c) c
    passOn ((ls.filter (fun l => l != x.lcore)).foldl hostNext s1) c c replace
  | .taking =>
    if x.takeWhy ≠ .replace then migrationFails (dropProgs (noteFenced s c) c) c
    else
      let ls := runsOn s c
      let s1 := dropProgs (noteFenced (keepSram (ls.foldl (stopScribe u c) (discardEvals s c)) c) c) c
      passOn ((ls.filter (fun l => l != x.lcore)).foldl hostNext s1) c x.takeFrom true

def fenceCore (s : State) (c : Nat) (replace : Bool) : State := fenceWith .fence s c replace

/-- Starts a migration (R124): answers the result code of `MESH.FENCE_STAT`. `why` says what becomes of the original core. -/
def startMigration (s : State) (c : Nat) (why : TakeWhy) : Nat × State :=
  if (migrationSpare s c).isSome then (3, s)
  else match takeSpare s c c why with
    | none => (2, s)
    | some (_, t) => (0, t)

/-! ### Orders of `MESH.FENCE_CMD` (R126) -/

/-- An order with GO: refused with its code, or started. -/
def fenceOrder (src pcore op : Nat) (act : State → State) (s : State) : State :=
  armedWrite s src pgMesh 0x050 (BitVec.ofNat 32 (pcore % 2048 + 2048 * op)) (fun t =>
    let refuse (code : Nat) : State := { t with mesh := { t.mesh with fenceResult := code } }
    if t.mesh.fenceBusy then refuse 3
    else if 1151 < pcore % 2048 then refuse 4
    else if (t.pcore (pcore % 2048)).kind ≠ .active then refuse 1
    else act { t with mesh := { t.mesh with
      fenceBusy := true, fenceOp := op, fencePcore := pcore % 2048, fenceResult := 0, fenceSpare := 0 } })

/-- FENCE_ONLY (R118, R121). -/
def execFenceOnly (src pcore : Nat) (s : State) : Host.Outcome State Fault Refusal :=
  .next (fenceOrder src pcore 1 (fun t => fenceCore t (pcore % 2048) false) s)

/-- FENCE_AND_REPLACE (R120). -/
def execFenceAndReplace (src pcore : Nat) (s : State) : Host.Outcome State Fault Refusal :=
  .next (fenceOrder src pcore 2 (fun t => fenceCore t (pcore % 2048) true) s)

/-- MIGRATE (R124). -/
def execMigrate (src pcore : Nat) (s : State) : Host.Outcome State Fault Refusal :=
  .next (fenceOrder src pcore 3 (fun t =>
    let r := startMigration t (pcore % 2048) .migrate
    if r.1 = 0 then r.2 else endOrder r.2 r.1) s)

/-! ### Routers and links (R107, R122) -/

/-- Marks a port down; a mesh direction that goes down is counted (`MESH.LINKS_DOWN`). -/
def portDown (s : State) (c port : Nat) : State :=
  if portIsUp s c port then
    let t := s.setPcore c { s.pcore c with portUp := (s.pcore c).portUp - 2 ^ port }
    if port < 4 ∧ (meshNeighbour c port).isSome then { t with mesh := { t.mesh with linksDown := sat 12 (t.mesh.linksDown + 1) } }
    else t
  else s

def noteFault (s : State) (c port kind bit : Nat) : State :=
  raise { s with mesh := { s.mesh with faultPcore := c, faultPort := port, faultKind := kind, rtPending := true } } pgMesh bit

/-- A link direction is declared down (R107, R122): a crossing joins two regions (R113). -/
def linkDown (s : State) (c port : Nat) : State :=
  if !portIsUp s c port then s
  else
    let crossing := match meshNeighbour c port with
      | some n => coreRegion n != coreRegion c
      | none => false
    noteFault (portDown s c port) c port (if crossing then 3 else 0) 0

/-- Partition that a flit in a receive buffer belongs to: that of its destination core, or of its source for an edge. -/
def flitPart (s : State) (f : Flit) : Nat := (s.pcore (if f.dest = 0x7FF then f.src else f.dest)).part

/-- Partitions whose flits wait in a router. -/
def flitParts (s : State) (c : Nat) : List Nat :=
  ((Tbl.getD s.slotsLig c []).map (fun f => (s.scribe f.lcore).part)
    ++ (List.range 20).flatMap (fun i => (Tbl.getD s.vcBuf (20 * c + i) []).map (flitPart s))).dedup

/-- All five ports of a router, and its neighbours' ports towards it, go down. -/
def isolate (s : State) (c : Nat) : State :=
  (List.range 5).foldl (fun t port =>
    match meshNeighbour c port with
    | none => portDown t c port
    | some n => portDown (portDown t c port) n (oppositePort port)) s

/-- Counts `n` flits that a core's router discards (R112, R118, R122). -/
def countDiscards (s : State) (c n : Nat) : State :=
  s.setPcore c { s.pcore c with discard := sat 16 ((s.pcore c).discard + n) }

def countDiscard (s : State) (c : Nat) : State := countDiscards s c 1

/-- A router keeps of its flits those that a test passes; the others are discarded and counted, and their jobs' steps are marked. -/
def sweepFlits (s : State) (c : Nat) (lig : LigFlit → Bool) (other : Flit → Bool) : State :=
  let held := Tbl.getD s.slotsLig c []
  let lost := held.filter (fun f => !lig f)
  let keys := (List.range 20).map (fun i => 20 * c + i)
  let gone := keys.flatMap (fun k => (Tbl.getD s.vcBuf k []).filter (fun f => !other f))
  if lost.isEmpty ∧ gone.isEmpty then s
  else
    let s1 := { s with
      slotsLig := Tbl.set s.slotsLig c (held.filter lig)
      vcBuf := keys.foldl (fun t k => Tbl.set t k ((Tbl.getD t k []).filter other)) s.vcBuf
      mesh := { s.mesh with lostFor :=
        (s.mesh.lostFor ++ lost.map (fun f => (s.scribe f.lcore).part) ++ gone.map (flitPart s)).dedup } }
    countDiscards s1 c (lost.length + gone.length)

/-- The flits that a router held are lost. -/
def loseFlits (s : State) (c : Nat) : State := sweepFlits s c (fun _ => false) (fun _ => false)

/-- A router goes down (R122): its neighbours mark their ports towards it, the flits it held are lost, and its core is fenced and
replaced: a core whose router is down is BAD or FENCED (R115). -/
def routerDown (s : State) (c : Nat) : State :=
  let s1 := isolate s c
  fenceWith .router (loseFlits (s1.setPcore c { s1.pcore c with rtrUp := false, rtrFault := true }) c) c true

/-! ### Ligature checks (R110 to R112, R147) -/

/-- The first tag of a ligature's four. -/
def baseTag (t : Nat) : Nat := t / 4 * 4

/-- A word of a role is the receipt of a tag (R176). -/
def receiptOf (tag : Nat) (w : W64) : Bool :=
  let f := fieldsOf w
  opcodeOf (w.extractLsb' 56 8).toNat == some Opcode.lig && immBits f 17 1 == 1 && immBits f 0 16 == tag

/-- The instruction index of the receipt that a tag belongs to: the posted one's, or its place in the role (R146, R147). -/
def ligIndex (s : State) (l tag : Nat) : Nat :=
  let sc := s.scribe l
  match sc.receipts.find? (fun r => r.tag == baseTag tag) with
  | some r => r.index
  | none => match (s.part sc.part).plan with
    | none => sc.pc
    | some pl => ((pl.roles.getD sc.role []).findIdx? (receiptOf (baseTag tag))).getD sc.pc

/-- A ligature check fails (R110 to R112): raised, counted at core `at_`, and the step of the receiving core is suspect, at the
instruction `idx` of the receipt. -/
def ligFailAt (s : State) (at_ l tag check bit idx : Nat) : State :=
  let sc := s.scribe l
  let x := s.pcore at_
  let s1 := s.setPcore at_ { x with
    ligTimeout := if check = 11 then sat 8 (x.ligTimeout + 1) else x.ligTimeout
    ligChkFail := if check = 9 then sat 8 (x.ligChkFail + 1) else x.ligChkFail }
  failCheck (raise s1 pgMesh bit) sc.part (mkSuspect s1 l check (.ligature (runCore s l) (baseTag tag) idx) .all idx 0)

def ligFail (s : State) (at_ l tag check bit : Nat) : State := ligFailAt s at_ l tag check bit (ligIndex s l tag)

/-- The duplicated adders of a router disagree on an fp32 sum that it holds: LIG_CHK, and the step is suspect (R111). -/
def addersDisagree (s : State) (c : Nat) (which : Option (Nat × Nat)) : State :=
  match which with
  | none => s
  | some (tag, stepTag) =>
    match (Tbl.getD s.slotsLig c []).find? (fun f => f.lfmt && f.tag == tag && f.stepTag == stepTag) with
    | none => s
    | some f => ligFail s c f.lcore f.tag 9 9

/-- ROUTER_FAULT (R122): the whole router, or a link or crossing that its self-check finds down. -/
def execRouterFault (core port : Nat) (found : RouterFault) (s : State) : Host.Outcome State Fault Refusal :=
  if numPcores ≤ core ∨ !(s.pcore core).rtrUp then .next s
  else if found.kind = 1 then
    let s2 := routerDown (noteFault (addersDisagree s core found.adder) core 7 1 1) core
    .next { s2 with mesh := { s2.mesh with faultPcore := core, faultPort := 7, faultKind := 1 } }
  else .next (linkDown s core port)

/-- MESH_RETRY_EXHAUSTED: three retransmissions of one flit fail (R107). -/
def execMeshRetryExhausted (core port : Nat) (s : State) : Host.Outcome State Fault Refusal := .next (linkDown s core port)

/-- MESH_CREDIT_TIMEOUT: no credit returns within 4,096 cycles (R107). -/
def execMeshCreditTimeout (core port : Nat) (s : State) : Host.Outcome State Fault Refusal := .next (linkDown s core port)

/-- A step in which flits were discarded is suspect (R122). -/
def lostFlits (s : State) (p : Nat) : State :=
  match s.job p with
  | none => s
  | some j =>
    if j.inStep then
      failCheck s p { check := 14, unit := .router s.mesh.faultPcore, reqs := .all, pindex := 0, index := 0, cause := 0 }
    else s

/-- Where the running sum of a chain goes next: the router of the contributor whose terms follow, or the destination (R108). -/
def LigFlit.heading (f : LigFlit) : Nat :=
  match f.order with
  | none => f.dest
  | some o => match o[f.pos]? with
    | some t => t.core
    | none => f.dest

/-- Flits at router `c` that the tables no longer lead to their destination are discarded. -/
def sweepRouter (s : State) (c : Nat) : State :=
  sweepFlits s c (fun f => deliverable s c f.heading) (fun f => deliverable s c (flitTarget f))

/-- ROUTE_TABLE_SWITCH (R122): every router switches to the tables that the mesh controller has computed, and the flits that can no longer
be delivered are discarded. Which detours it takes is free (log entry 94). -/
def execRouteTableSwitch (s : State) : Host.Outcome State Fault Refusal :=
  if !s.mesh.rtPending then .next s
  else
    let s0 := buildRoutes s.nextFree (freeRoutes s)
    let rs := (s.slotsLig.map (fun (x : Nat × List LigFlit) => x.1) ++ s.vcBuf.map (fun (x : Nat × List Flit) => x.1 / 20)).dedup
    let s1 := rs.foldl sweepRouter s0
    let s2 := s1.mesh.lostFor.foldl lostFlits s1
    let m := s2.mesh
    .next (raise { s2 with mesh := { m with
      rtVersion := (m.rtVersion + 1) % 65536, rtUpdates := sat 16 (m.rtUpdates + 1), rtPending := false, lostFor := [] } }
      pgMesh 2)

end Sys2Proof.Machine
end

