-- ==== Sys2Proof/Machine/Images.lean ====
section
/-! DEFINITION. Master images: their layout and checks, and the orders LOAD, RELOAD and DISCARD NEXT (R275 to R277, R353, R441). -/

namespace Sys2Proof.Machine

/-! ### Layout (R275) -/

def imgNtile (b : List Byte) : Nat := numAt b 0x10 4
def imgDir (b : List Byte) : Nat := numAt b 0x40 8
def imgScale (b : List Byte) : Nat := numAt b 0x48 8
def imgCode (b : List Byte) : Nat := numAt b 0x50 8
/-- Directory entry `t`: partition core index and array. -/
def imgPlace (b : List Byte) (t : Nat) : Nat × Nat := (numAt b (imgDir b + 64 * t) 2, numAt b (imgDir b + 64 * t + 2) 1)
def imgPlaces (b : List Byte) : List (Nat × Nat) := (List.range (imgNtile b)).map (imgPlace b)

/-- A section of `n` bytes lies within the image. -/
def within (b : List Byte) (off n : Nat) : Bool := decide (off + n ≤ b.length)

/-- MAGIC, FORMAT, reserved fields, alignments, LENGTH, sections within the image, EDITION, NTILE and ARRAY in range. -/
def imgForm (b : List Byte) (len : Nat) : Bool :=
  bytesAt b 0 4 == [0x46#8, 0x5A#8, 0x57#8, 0x49#8] && numAt b 4 2 == 1 && zeroAt b 6 2 && zeroAt b 0x14 4
  && zeroAt b 0x58 40 && numAt b 8 8 != 0 && decide (1 ≤ imgNtile b) && decide (imgNtile b ≤ 32768)
  && numAt b 0x18 8 == len
  && imgDir b % 64 == 0 && imgScale b % 4096 == 0 && imgCode b % 131072 == 0
  && within b (imgDir b) (64 * imgNtile b) && within b (imgScale b) (2048 * imgNtile b)
  && within b (imgCode b) (131072 * imgNtile b)
  && (List.range (imgNtile b)).all (fun t =>
    zeroAt b (imgDir b + 64 * t + 3) 5 && zeroAt b (imgDir b + 64 * t + 0x28) 24 && decide ((imgPlace b t).2 < 32))

def noRepeats : List (Nat × Nat) → Bool
  | [] => true
  | x :: xs => !xs.contains x && noRepeats xs

/-- Every place unique, and below the count of logical cores where one is known (R276, R353). -/
def imgPlacement (ps : List (Nat × Nat)) (lcount : Option Nat) : Bool :=
  match lcount with
  | none => true
  | some n => noRepeats ps && ps.all (fun x => decide (x.1 < n))

/-- Every column scale is finite (R66). -/
def imgScales (b : List Byte) : Bool :=
  (List.range (512 * imgNtile b)).all (fun i => numAt b (imgScale b + 4 * i) 4 / 2 ^ 23 % 256 != 255)

def imgEdDigest (b : List Byte) : BitVec 256 :=
  digest32 (bytesAt b (imgDir b) (64 * imgNtile b) ++ bytesAt b (imgScale b) (2048 * imgNtile b))

def imgDigests (b : List Byte) : Bool :=
  (List.range (imgNtile b)).all (fun t =>
    digest32 (bytesAt b (imgCode b + 131072 * t) 131072) == digestAt b (imgDir b + 64 * t + 8))
  && imgEdDigest b == digestAt b 0x20

/-- The checks of R276 up to the digests, in its order: 0, or the result code of the first that fails. -/
def imgCheck (b : List Byte) (len : Nat) (lcount : Option Nat) : Nat :=
  if !imgForm b len then 1
  else if !imgPlacement (imgPlaces b) lcount then 2
  else if !imgScales b then 3
  else if !imgDigests b then 4
  else 0

/-- An image as the loader keeps it. -/
def imageOf (b : List Byte) : Image :=
  { edition := numAt b 8 8, digest := digestAt b 0x20, ntile := imgNtile b, length := b.length, codeOff := imgCode b,
    dir := imgPlaces b,
    bytes := Mem.writeBytes [] 0 b, lost := [] }

/-- MiB of an image slot (R332). -/
def imageMib (im : Option Image) : Nat := match im with
  | some i => (i.length + 2 ^ 20 - 1) / 2 ^ 20
  | none => 0

/-! ### Orders of `WEIGHT.CMD` (R296, R297, R441) -/

def weightPart (d : W32) : Nat := (d.extractLsb' 0 5).toNat

/-- A partition that exists (R441). -/
def partExists (s : State) (p : Nat) : Bool := (s.part p).state != .none && (s.part p).state != .creating

def weightResult (s : State) (r : Nat) : State := { s with weight := { s.weight with result := r } }

/-- An order of the row with OP `op`: accepted by the arm, recorded as the last order, then checked. -/
def weightOrder (src : Nat) (d : W32) (op : Nat) (act : Nat → State → State) (s : State) : State :=
  let p := weightPart d
  let word := (d &&& ~~~(0x1E0#32)) ||| BitVec.ofNat 32 (op * 32)
  armedWrite s src pgWeight 0x04C word (fun t =>
    act p { t with weight := { t.weight with part := p, lastOp := op } })

/-- An edition change of a partition is in progress (R334). -/
def partChanging (x : Part) : Bool := x.change != .none
/-- A change that uses NEXT (R276, R441). -/
def changeUsesNext (x : Part) : Bool := match x.change with
  | .none | .rolling => false
  | .offline | .rollPending _ => true
/-- The image slot that an order uses is being read (R441). -/
def slotBeingRead (s : State) (p : Nat) (current : Bool) : Bool := match s.weight.busy with
  | some (q, rel, _) => q == p && rel == current
  | none => false

/-- Before the partitions exist, RELOAD supplies boot images (R353). -/
def bootTime (s : State) : Bool := !(s.bring.doneMap.testBit 14)

/-- LOAD (R276): the image is read by DMA; its checks follow when it has been read. -/
def startLoad (p : Nat) (reload : Bool) (s : State) : State :=
  let x := s.part p
  if s.weight.busy.isSome then weightResult s 11
  else if !partExists s p && !(reload && bootTime s) then weightResult s 7
  else if !reload && changeUsesNext x then weightResult s 7
  else { s with weight := { s.weight with
    busy := some (p, reload, s.field pgWeight 0x048 0 24), abandoned := false } }

def execImageLoad (src : Nat) (data : W32) (s : State) : Host.Outcome State Fault Refusal :=
  .next (weightOrder src data 1 (fun p t => startLoad p false t) s)
def execReload (src : Nat) (data : W32) (s : State) : Host.Outcome State Fault Refusal :=
  .next (weightOrder src data 2 (fun p t => startLoad p true t) s)

/-- DISCARD NEXT (R441). -/
def discardNext (p : Nat) (s : State) : State :=
  let x := s.part p
  if !partExists s p || changeUsesNext x then weightResult s 7
  else if slotBeingRead s p false then weightResult s 11
  else weightResult (s.setPart p { x with nextImage := none }) 0

def execDiscardNext (src : Nat) (data : W32) (s : State) : Host.Outcome State Fault Refusal :=
  .next (weightOrder src data 3 discardNext s)

/-! ### End of a load (R276, R277, R353) -/

/-- The edition that the residency records of a partition name, where they name one (R353). -/
def recordedEdition (s : State) (p : Nat) : Option Nat := match residentOf s p with
  | [] => none
  | k :: _ => some (s.array k).edition

/-- The edition and digest that a RELOAD must show: those of the edition served, or the recorded edition where the partition
serves none yet (R277, R353). -/
def reloadMatches (s : State) (p : Nat) (im : Image) : Bool :=
  let x := s.part p
  if partExists s p && x.edition != 0 then im.edition == x.edition && im.digest == x.edDigest
  else recordedEdition s p == some im.edition

def endLoad (s : State) (r : Nat) : State :=
  raise { s with weight := { s.weight with busy := none, abandoned := false, result := r } } pgWeight 0

/-- A RELOAD accepted: a boot image before the partition exists, otherwise CURRENT. -/
def acceptReload (s : State) (p : Nat) (im : Image) : State :=
  if partExists s p then s.updPart p (fun x =>
    { x with curImage := some im, edition := im.edition, edDigest := im.digest })
  else { s with bring := { s.bring with boot := Tbl.set s.bring.boot p im } }

/-- What the read of an image ends with: result and state (R276, R277). -/
def judgeLoad (s : State) (p : Nat) (reload : Bool) (kib : Nat) (b : List Byte) : Nat × State :=
  let x := s.part p
  let len := (kib * 1024 + 4095) / 4096 * 4096
  let boot := !partExists s p
  let c := imgCheck b len (if boot then none else some x.cfg.lcount)
  if c ≠ 0 then (c, s)
  else
    let im := imageOf b
    let other := if reload then imageMib x.nextImage else imageMib x.curImage
    if reload && !reloadMatches s p im then (8, s)
    else if !boot && decide (x.cfg.image < imageMib (some im) + other) then (5, s)
    else if reload then (0, acceptReload s p im)
    else (0, s.setPart p { x with nextImage := some im })

/-- IMAGE_DONE: a LOAD or RELOAD ends (R276, R277, R441). A failed LOAD leaves NEXT empty. -/
def execImageDone (image : Option (List Byte)) (s : State) : Host.Outcome State Fault Refusal :=
  match s.weight.busy with
  | none => .next s
  | some (p, reload, kib) =>
    let gone := s.weight.abandoned || (!partExists s p && !(reload && bootTime s))
    if gone then .next (endLoad s 7)
    else
      let r := match image with
        | none => (6, s)
        | some b => judgeLoad s p reload kib b
      let t := if r.1 ≠ 0 ∧ !reload then r.2.updPart p (fun x => { x with nextImage := none }) else r.2
      .next (endLoad t r.1)

end Sys2Proof.Machine
end

