-- ==== Sys2Proof/Machine/Serving.lean ====
section
/-! DEFINITION. What the serving commands share: the REQ registers, pages and handles, the KV map, records, completions and their
messages, and the end of a request (R216, R219 to R223, R226, R228, R237 to R240, R338, R339). -/

namespace Sys2Proof.Machine

/-! ### REQ registers (R244) -/

def clampNat (n lo hi : Nat) : Nat := max lo (min n hi)
/-- A field of which 0 acts as 1 and larger values as the greatest. -/
def fieldMin1 (s : State) (page off lo w top : Nat) : Nat := clampNat (s.field page off lo w) 1 top

def layersOf (s : State) (p : Nat) : Nat := fieldMin1 s (pgReq p) 0x0A0 0 8 255
def maxBlkOf (s : State) (p : Nat) : Nat := fieldMin1 s (pgReq p) 0x0A0 8 13 4096
def maxPosOf (s : State) (p : Nat) : Nat := 64 * maxBlkOf s p
def chunkMax (s : State) (p : Nat) : Nat := fieldMin1 s (pgReq p) 0x08C 16 12 4095
def listMax (s : State) (p : Nat) : Nat := fieldMin1 s (pgReq p) 0x08C 0 16 65535
def posMax (s : State) (p : Nat) : Nat := fieldMin1 s (pgReq p) 0x090 0 16 65535
def intakeMax (s : State) (p : Nat) : Nat := fieldMin1 s (pgReq p) 0x048 8 12 2048
def ringLen (s : State) (p : Nat) : Nat := 2 ^ clampNat (s.field (pgReq p) 0x048 0 5) 4 16
def cqLen (s : State) (p : Nat) : Nat := 2 ^ clampNat (s.field (pgReq p) 0x068 0 5) 6 16
/-- An address register pair whose low bits are reserved. -/
def addrPair (s : State) (page lo : Nat) : Nat := (s.reg page lo).toNat + 2 ^ 32 * (s.reg page (lo + 4)).toNat

/-- Slots of a partition; the number of those not FREE. -/
def slotsOf (s : State) (p : Nat) : List Nat :=
  (s.slots.filter (fun (_, x) => x.part == p && x.state != .free)).map (·.1)
def ownSlot (x : Part) (n : Nat) : Bool := decide (x.cfg.sbase ≤ n) && decide (n < x.cfg.sbase + x.cfg.scount)

/-! ### Host memory (R9, R331) -/

def hostWrite (s : State) (a : Nat) (bs : List Byte) : State := { s with hostOut := Mem.writeBytes s.hostOut a bs }

/-- The bytes [a, a + n) of a memory, from offset 0 on; and `m` with its bytes [a, a + n) replaced by those of `src`. -/
def Mem.slice (m : Mem) (a n : Nat) : Mem :=
  (m.filter (fun c => decide (a ≤ c.1) && decide (c.1 < a + n))).map (fun c => (c.1 - a, c.2))
def Mem.blit (m : Mem) (a n : Nat) (src : Mem) : Mem :=
  src.foldl (fun t c => if c.1 < n then Mem.write t (a + c.1) c.2 else t)
    (m.filter (fun c => decide (c.1 < a) || decide (a + n ≤ c.1)))

/-! ### Moderated messages (R338, R339) -/

/-- `n` writes that a moderated vector of partition `p` covers: the message goes when the count is reached, at once for a
terminator, and after every write with TIMER = 0. -/
def countVector (s : State) (p v off n : Nat) (now : Bool) : State :=
  let x := s.part p
  let count := fieldMin1 s (pgFunc p) off 0 8 255
  let timer := s.field (pgFunc p) off 8 16
  let c := Tbl.getD x.modCount v 0 + n
  let s1 := s.setPart p { x with modCount := Tbl.set x.modCount v c }
  if 0 < c ∧ (now ∨ timer = 0 ∨ count ≤ c) then
    sendMsg (s1.setPart p { s1.part p with modCount := Tbl.set (s1.part p).modCount v 0 }) (p + 1, v)
  else s1

/-- Scroll vector of a slot (R338). -/
def scrollVector (s : State) (p n : Nat) : Nat :=
  4 + (n - (s.part p).cfg.sbase) % fieldMin1 s (pgFunc p) 0x040 0 6 60

/-! ### Completion ring (R223) -/

/-- The 32 bytes of completion entry number `k`; PHASE is 1 on the first pass. -/
def completionBytes (len k : Nat) (c : Completion) : List Byte :=
  leBytes 8 c.tag.toNat ++ leBytes 2 c.slot ++ leBytes 2 c.gen ++ leBytes 1 c.kind ++ leBytes 1 c.code ++ leBytes 1 0
  ++ leBytes 1 ((k / len + 1) % 2) ++ leBytes 8 c.value.toNat ++ leBytes 8 c.stroke

/-- The device may write host memory for the partition (R331); not between a reset point and its completion (R342). -/
def hostOpen (x : Part) : Bool := x.bme && !x.resetting

def cqRoom (s : State) (p : Nat) : Bool :=
  decide (((s.part p).cqProd + 2 ^ 32 - (s.reg (pgReq p) 0x06C).toNat) % 2 ^ 32 < cqLen s p)

/-- Writes waiting entries while the ring has room; `n` bounds how many. -/
def flushCq : Nat → State → Nat → State
  | 0, s, _ => s
  | n + 1, s, p =>
    let x := s.part p
    match x.cqQueue with
    | [] => s
    | c :: rest =>
      if hostOpen x && cqRoom s p then
        let len := cqLen s p
        let a := addrPair s (pgReq p) 0x060 + 32 * (x.cqProd % len)
        let s1 := hostWrite s a (completionBytes len x.cqProd c)
        let s2 := s1.setPart p { s1.part p with cqQueue := rest, cqProd := (x.cqProd + 1) % 2 ^ 32 }
        flushCq n (countVector s2 p 3 0x048 1 false) p
      else s

def cqQueueMax : Nat := 4096

/-- Puts a completion entry in the partition's queue and writes what the ring takes; CQ_FULL is raised when the queue fills. The
outcome of a cancel waits beyond the queue (`keep`); another entry that finds the queue full is lost. -/
def complete (s0 : State) (p : Nat) (keep : Bool) (c : Completion) : State :=
  let s := { s0 with freeCtr := s0.freeCtr + 4 }
  let x := s.part p
  if !keep && decide (cqQueueMax ≤ x.cqQueue.length) then s
  else
    let s1 := s.setPart p { x with cqQueue := x.cqQueue ++ [c] }
    let s2 := flushCq (x.cqQueue.length + 1) s1 p
    if x.cqQueue.length < cqQueueMax ∧ cqQueueMax ≤ (s2.part p).cqQueue.length then raise s2 (pgReq p) 1 else s2

/-- The `k`-th value that the manual leaves open in the entry written next, below `n` (log entry 3). -/
def State.openAt (s : State) (k n : Nat) : Nat := Config.freeNat (s.freeCtr + k) % n

/-- VALUE of R223: the last SEQ of `n` records committed. Where none is, or no request is meant, the manual gives none. -/
def seqValue (s : State) (n : Nat) : W64 := BitVec.ofNat 64 (if n = 0 then s.openAt 0 (2 ^ 64) else n - 1)
def lastSeq (s : State) (x : Slot) : W64 := seqValue s x.nextSeq

/-- A completion entry about a slot. -/
def slotEntry (s : State) (n kind code : Nat) (tag : W64) (stroke : Nat) : Completion :=
  let x := s.slot n
  { tag := tag, slot := n, gen := x.gen, kind := kind, code := code, value := lastSeq s x, stroke := stroke }

/-! ### Token records (R219, R220) -/

/-- The 64 bytes of a token record. -/
def recordBytes (x : Slot) (n token prob degraded endKind stroke pos : Nat) : List Byte :=
  let flags := (if endKind = 0 then 0 else 1) + (if x.takeover then 2 else 0) + (if degraded = 0 then 0 else 4)
    + (if x.resumedFlag then 8 else 0)
  leBytes 4 x.nextSeq ++ leBytes 4 token ++ leBytes 8 x.desc.hostTag.toNat ++ leBytes 8 stroke ++ leBytes 4 pos
  ++ leBytes 4 prob ++ leBytes 2 (sat 16 degraded) ++ leBytes 2 flags ++ leBytes 1 endKind ++ leBytes 3 0
  ++ leBytes 2 n ++ leBytes 2 x.gen ++ leBytes 20 0

/-- Token position of record SEQ `q`: prompt tokens and records come before it. -/
def recordPos (x : Slot) (q : Nat) : Nat := x.prefixLen + x.desc.promptLen + q

/-- Host address of the next record: in the standby scroll after a takeover (R222). -/
def recordAddr (x : Slot) : Nat :=
  (if x.takeover then x.desc.standbyAddr else x.desc.scrollAddr) + 64 * (x.nextSeq % max 1 x.desc.scrollLen)

/-- Writes records that waited for Bus Master Enable (R331). -/
def flushRecords (s : State) (p : Nat) : State :=
  let x := s.part p
  if hostOpen x then
    (x.heldRecords.foldl (fun t (a, bs) => hostWrite t a bs) s).setPart p { x with heldRecords := [] }
  else s

/-- POSITION of a terminator without a token: that of the last committed token, a record's or a prompt token's. Where nothing is committed
the manual gives none (log entry 42). -/
def lastPos (s : State) (x : Slot) : Nat :=
  if x.nextSeq ≠ 0 then recordPos x x.nextSeq - 1
  else if x.prefixLen + x.promptDone ≠ 0 then x.prefixLen + x.promptDone - 1
  else s.openAt 7 (2 ^ 32)

/-- Commits the next record of slot `n` with its stroke number, and writes it, or holds it while Bus Master Enable is 0. -/
def commitRecord (s : State) (p n token prob degraded endKind stroke : Nat) (write : Bool) : State :=
  let x := s.slot n
  let pos := if token = 0xFFFFFFFF ∧ 3 ≤ endKind then lastPos s x else recordPos x x.nextSeq
  let bs := recordBytes x n token prob degraded endKind stroke pos
  let s1 := s.setSlot n { x with nextSeq := x.nextSeq + 1, resumedFlag := false,
                                 lastToken := if endKind < 3 then token else x.lastToken }
  if !write then s1
  else
    let y := s1.part p
    if y.bme then countVector (hostWrite s1 (recordAddr x) bs) p (scrollVector s1 p n) 0x044 1 (endKind != 0)
    else s1.setPart p { y with heldRecords := y.heldRecords ++ [(recordAddr x, bs)] }

/-! ### KV pages (R171, R215, R235) -/

/-- Pages reserved by the partition's slots and not yet allocated. -/
def reservedPages (s : State) (p : Nat) : Nat :=
  (s.slots.map (fun (_, x) => if x.part = p ∧ x.state ≠ .free then x.reserved else 0)).sum

/-- Pages of the pool in use or retired. -/
def usedPages (x : Part) : Nat := (x.pages.filter (fun (_, g) => g.owner != .free)).length

/-- Free pages of a partition's pool, net of reservations (`REQ.PAGE_FREE`). -/
def freePages (s : State) (p : Nat) : Nat := (s.part p).pagesTotal - usedPages (s.part p) - reservedPages s p

def pageUsed (x : Part) (k : Nat) : Bool := match Tbl.get? x.pages k with
  | some g => g.owner != .free
  | none => false

/-- The first free page at or after index `i` of the pool, cyclically; `n` bounds the search. -/
def scanPage (x : Part) : Nat → Nat → Nat
  | 0, i => x.pageBase + i % max 1 x.pagesTotal
  | n + 1, i =>
    let k := x.pageBase + i % max 1 x.pagesTotal
    if pageUsed x k then scanPage x n (i + 1) else k

/-- Offset of a slot's KV map in the scratch pool, and of the entry of block `b` and layer `ly` (R216). -/
def mapEntry (s : State) (p n key : Nat) : Nat :=
  (s.reg (pgReq p) 0x09C).toNat * 4096 + 4 * layersOf s p * maxBlkOf s p * (n - (s.part p).cfg.sbase) + 4 * key

def scratchWrite (s : State) (p a : Nat) (bs : List Byte) : State :=
  s.updPart p (fun x => { x with scratch := Mem.writeBytes x.scratch a bs })

/-- Sets a map word of a slot. -/
def setMapWord (s : State) (p n key page : Nat) : State := scratchWrite s p (mapEntry s p n key) (leBytes 4 page)

/-- Allocates and zeroes a page for slot `n` at map key `key`; which free page is the device's choice (log entry 3). -/
def allocPage (s : State) (p n key : Nat) : State :=
  let x := s.part p
  let k := scanPage x (x.pages.length + 1) (s.freeNat (max 1 x.pagesTotal))
  let g : KvPage := { part := p, owner := .priv n, pos := [], data := [] }
  let s1 := (s.setPart p { x with pages := Tbl.set x.pages k g }).nextFree
  let y := s1.slot n
  let s2 := s1.setSlot n { y with kvMap := Tbl.set y.kvMap key k, reserved := y.reserved - 1 }
  setMapWord s2 p n key k

/-- A page returns to FREE. -/
def freePage (s : State) (p k : Nat) : State := s.updPart p (fun x => { x with pages := Tbl.erase x.pages k })

/-- Frees the private pages of a slot, with their map words. -/
def freeSlotPages (s : State) (p n : Nat) : State :=
  let s1 := (s.slot n).kvMap.foldl (fun t (key, k) =>
    let t1 := match Tbl.get? (t.part p).pages k with
      | some g => if g.owner = .priv n then freePage t p k else t
      | none => t
    setMapWord t1 p n key 0xFFFFFFFF) s
  s1.setSlot n { s1.slot n with kvMap := [], reserved := 0 }

/-- Keys of the map that the slot's private pages hold. -/
def privateKeys (s : State) (p n : Nat) : List (Nat × Nat) :=
  (s.slot n).kvMap.filter (fun (_, k) => match Tbl.get? (s.part p).pages k with
    | some g => g.owner == .priv n
    | none => false)

/-- Keys of the blocks of positions [first, first + count), on every layer. -/
def blockKeys (layers first count : Nat) : List Nat :=
  if count = 0 then []
  else (List.range ((first + count - 1) / 64 + 1 - first / 64)).flatMap (fun b =>
    (List.range layers).map (fun ly => layers * (first / 64 + b) + ly))

/-- Map keys that positions [first, first + count) still need: none allocated, or a page that a handle shares (R217, R239). -/
def missingKeys (s : State) (p n first count : Nat) : List Nat :=
  (blockKeys (layersOf s p) first count).filter (fun key =>
    match Tbl.get? (s.slot n).kvMap key with
    | none => true
    | some k => match Tbl.get? (s.part p).pages k with
      | some g => g.owner != .priv n
      | none => true)

/-- Gives a slot the page of a key: a new one, or its own copy of a shared one (R239). -/
def takePage (p n : Nat) (s : State) (key : Nat) : State :=
  let old := (Tbl.get? (s.slot n).kvMap key).bind (fun k => Tbl.get? (s.part p).pages k)
  let s1 := allocPage s p n key
  match old with
  | none => s1
  | some g =>
    let k := Tbl.getD (s1.slot n).kvMap key 0
    s1.updPart p (fun x => { x with pages := Tbl.set x.pages k { g with owner := .priv n } })

/-- Allocates what the positions need; none where too few pages are free. -/
def takePages (s : State) (p n first count : Nat) : Option State :=
  let ks := missingKeys s p n first count
  if ks.length ≤ (s.slot n).reserved + freePages s p then some (ks.foldl (takePage p n) s) else none

/-- Truncates the draft positions of a slot: they read 0 (R204, R236). -/
def clearPos (g : KvPage) (pos : Nat) : KvPage :=
  { g with pos := Tbl.erase g.pos pos, data := Mem.writeBytes g.data (4096 * pos) (List.replicate 4096 0#8) }
def dropDrafts (s : State) (p n : Nat) : State :=
  (s.slot n).kvMap.foldl (fun t (_, k) =>
    match Tbl.get? (t.part p).pages k with
    | none => t
    | some g =>
      if g.owner = .priv n then
        let g1 := (g.pos.filter (fun (_, st) => st == .draft)).foldl (fun h (pos, _) => clearPos h pos) g
        t.updPart p (fun x => { x with pages := Tbl.set x.pages k g1 })
      else t) s

/-! ### Handles (R237, R240) -/

/-- The 64-bit value of a handle. -/
def handleValue (s : State) (h : Nat) : W64 :=
  let x := s.handle h
  BitVec.ofNat 64 (h + 2 ^ 14 * x.part + 2 ^ 19 * (x.count29 % 2 ^ 29) + 2 ^ 48 * x.gen)

/-- The entry of a partition that a 64-bit reference matches. -/
def findHandle (s : State) (p : Nat) (v : W64) : Option Nat :=
  let h := v.toNat % 2 ^ 14
  if (s.handle h).part = p ∧ (s.handle h).state ≠ .free ∧ handleValue s h = v then some h else none

def handlesOf (s : State) (p : Nat) : List Nat :=
  (s.handles.filter (fun (_, x) => x.part == p && x.state != .free)).map (·.1)

/-- Frees a handle entry and its pages. The entry's next use has the next generation (R237). -/
def freeHandle (s : State) (h : Nat) : State :=
  let x := s.handle h
  let s1 := x.pages.foldl (fun t (_, k) => freePage t x.part k) s
  s1.setHandle h { Handle.reset with gen := (x.gen + 1) % 65536 }

/-- This device holds a share of the partition's job and is not its entry device. -/
def notEntry (s : State) (p : Nat) : Bool := match (s.part p).plan with
  | some pl => !pl.entry
  | none => false

/-- HANDLE_RETIRED with a code (R240); the buddy and the other devices of a block write none (R18, R322). -/
def retireHandle (s : State) (h code : Nat) : State :=
  let x := s.handle h
  let e : Completion := { tag := x.hostTag, slot := h, gen := x.gen, kind := 10, code := code, value := seqValue s 0,
                          stroke := s.stroke.number }
  if x.quiet || notEntry s x.part then freeHandle s h else complete (freeHandle s h) x.part false e

/-- A user of a handle ends (R239, R240). -/
def dropUser (s : State) (h : Nat) : State :=
  let x := s.handle h
  let s1 := s.setHandle h { x with users := x.users - 1 }
  if x.users ≤ 1 ∧ (x.state = .releasing ∨ x.state = .stale) then retireHandle s1 h 0 else s1

/-! ### End of a request (R228) -/

/-- The slot, its pages, its map words, its state area and its handle reference are freed; the generation and the END code stay
(R226, R228). -/
def freeSlot (s : State) (p n endCode : Nat) : State :=
  let x := s.slot n
  let s1 := freeSlotPages s p n
  let s2 := match x.handle with
    | some h => if x.state = SlotState.building then freeHandle s1 h else dropUser s1 h
    | none => s1
  let y : Slot := { Slot.reset with gen := x.gen, part := p, lastEndGen := some (x.gen, endCode) }
  s2.setSlot n { y with lastEndSeq := x.nextSeq }

/-- A request ends with a code: ENDED, and the outcome of a cancel that waits for it (R229, R231). -/
def endRequest (s : State) (p n endCode stroke : Nat) : State :=
  let x := s.slot n
  let s1 := complete s p (x.cancel.isSome) (slotEntry s n 5 endCode x.desc.hostTag stroke)
  let s2 := match x.cancel with
    | none => s1
    | some _ =>
      let code := if endCode = 3 then 0 else 1
      let t := complete s1 p true (slotEntry s1 n 4 code (BitVec.ofNat 64 x.cancelTag) stroke)
      if code = 1 then { t with serve := { t.serve with late := sat 16 (t.serve.late + 1) } } else t
  freeSlot s2 p n endCode

/-- Commits a terminator without a token and ends the request (R219, R228). -/
def terminate (s : State) (p n endCode stroke : Nat) : State :=
  let t := commitRecord s p n 0xFFFFFFFF 0 0 endCode stroke true
  endRequest { t with freeCtr := t.freeCtr + 8 } p n endCode stroke

/-- A registration is abandoned: HANDLE_FAILED with a code, and the outcome of a cancel (R231, R240). -/
def abandonBuilding (s : State) (p n code : Nat) : State :=
  let x := s.slot n
  let h := x.handle.getD 0
  let e : Completion := { tag := x.desc.hostTag, slot := h, gen := (s.handle h).gen, kind := 9, code := code,
                          value := seqValue s 0, stroke := s.stroke.number }
  let s1 := complete s p x.cancel.isSome e
  let s2 := match x.cancel with
    | none => s1
    | some _ => complete s1 p true (slotEntry s1 n 4 0 (BitVec.ofNat 64 x.cancelTag) s.stroke.number)
  freeSlot s2 p n 3

/-- A cancelled request ends at a boundary: END 3, or for a registration HANDLE_FAILED (R229, R231). -/
def endCancelled (s : State) (p n : Nat) : State :=
  if (s.slot n).state = SlotState.building then abandonBuilding s p n 3 else terminate s p n 3 s.stroke.number

/-- A DMA read error ends a request (R212). Which END code it has, the manual leaves open; a registration reports DMA_ERROR. -/
def endDmaError (s : State) (p n : Nat) : State :=
  if (s.slot n).state = SlotState.building then abandonBuilding s p n 10
  else terminate s.nextFree p n (3 + s.freeNat 3) s.stroke.number

/-! ### Low counts (R244, R245) -/

/-- Free slots, pages and handle entries of the device, with their totals. -/
def freeSlots (s : State) : Nat := numSlots - (s.slots.filter (fun (_, x) => x.state != .free)).length
def freeHandles (s : State) : Nat := numHandles - (s.handles.filter (fun (_, x) => x.state != .free)).length
def totalPages (s : State) : Nat := (s.parts.map (fun (_, x) => x.pagesTotal)).sum
def allFreePages (s : State) : Nat := (s.parts.map (fun (p, _) => freePages s p)).sum

/-- A count falls below one sixteenth of its total. -/
def fell (before after total : Nat) : Bool := decide (total ≤ 16 * before) && decide (16 * after < total)

/-- Events of counts that fell below 1/16 of their totals between two states. -/
def raiseLows (old s : State) : State :=
  let serve := (if fell (freeSlots old) (freeSlots s) numSlots then 1 else 0)
    + (if fell (allFreePages old) (allFreePages s) (totalPages s) then 2 else 0)
    + (if fell (freeHandles old) (freeHandles s) numHandles then 4 else 0)
  let reqs := s.parts.filterMap (fun (p, x) =>
    if fell (freePages old p) (freePages s p) x.pagesTotal then some (pgReq p, 32) else none)
  raiseAll s ((pgServe, serve) :: reqs)

end Sys2Proof.Machine
end

