-- ==== Sys2Proof/Machine/WriteSlots.lean ====
section
/-! DEFINITION. Programming of arrays: write slots, erasure, verification, refreshes, and edition changes (R36, R257, R278 to R287,
R290 to R295, R441). -/

namespace Sys2Proof.Machine

/-! ### Queue (R280) -/

def progKey (q : Prog) : Nat := 32 * q.pcore + q.array
def repairWork (q : Prog) : Bool := q.why == .takeover || q.why == .migration
/-- Precedence within a pool: lower first (R280). -/
def progRank : ProgWhy → Nat
  | .takeover => 0
  | .migration => 1
  | .offline => 0
  | .rolling => 0
  | .erase => 1
  | .verify => 2
  | .shadow => 3
  | .refresh => 4

/-- The image that a programming reads (R120, R279, R285). -/
def progImage (s : State) (q : Prog) : Option Image :=
  if q.why = .erase then none else if q.fromNext then (s.part q.part).nextImage else (s.part q.part).curImage

/-- The tile that a programming writes: after a failed verification the one that CURRENT places there, where it places one. -/
def progTile (s : State) (q : Prog) : Nat :=
  match q.why, (s.part q.part).curImage with
  | .verify, some im => (placedTile s im (progKey q)).getD q.tile
  | _, _ => q.tile

/-- The codes can be read (R277). -/
def sourceReady (s : State) (q : Prog) : Bool :=
  q.why == .erase || (match progImage s q with
    | some im => decide (progTile s q < im.ntile) && !im.lost.contains (progTile s q)
    | none => false)

/-- The array is out of array service and idle (R279): it left at a boundary, its core serves nobody, or no strokes run; and it is no
shadow that still serves (R287). -/
def arrayReady (s : State) (q : Prog) : Bool :=
  let a := s.array (progKey q)
  (a.fenced || (s.pcore q.pcore).kind != .active || !strokesRun s) && a.eval.isNone
  && !s.weight.shadows.any (fun x => x.1 == progKey q)

/-- A queued programming may start now. A refresh waits for an edition change of its partition (R295). -/
def mayStart (s : State) (q : Prog) : Bool :=
  !q.started && sourceReady s q && arrayReady s q
  && !s.weight.queue.any (fun r => r.started && progKey r == progKey q)
  && (repairWork q || (s.region (coreRegion q.pcore)).div == 16)
  && (q.why != .refresh || !partChanging (s.part q.part))

/-- Whether `a` goes before `b` in its pool: rank; for a change the core's rank in its partition, then the array; among refreshes
the one that fell due first, a refresh that the host ordered falling due with its order (R280). -/
def progBefore (s : State) (a b : Prog) : Bool :=
  let ra := progRank a.why
  let rb := progRank b.why
  if ra ≠ rb then decide (ra < rb)
  else if a.why = .offline ∨ a.why = .rolling then
    let ca := coreIndex s a.part (s.pcore a.pcore).lcore
    let cb := coreIndex s b.part (s.pcore b.pcore).lcore
    decide (ca < cb) || (ca == cb && decide (a.array < b.array))
  else if a.why = .refresh then decide (a.dueNo < b.dueNo)
  else false

/-- The next of a pool: the first of those that nothing goes before. -/
def nextProg (s : State) : List Prog → Option Prog
  | [] => none
  | q :: qs => some (qs.foldl (fun b x => if progBefore s x b then x else b) q)

def slotsUsed (s : State) (f : Prog → Bool) : Nat := (s.weight.queue.filter (fun q => q.started && f q)).length
def bulkLimit (s : State) : Nat := min 16 (s.field pgWeight 0x064 0 5)
def bulkUsed (s : State) : Nat := slotsUsed s (fun q => !q.repair)

/-- The programming that a free write slot takes, and whether the slot is a repair slot (R280). -/
def chooseProg (s : State) : Option (Prog × Bool) :=
  let ok := s.weight.queue.filter (mayStart s)
  let rep := nextProg s (ok.filter repairWork)
  let blk := nextProg s (ok.filter (fun q => !repairWork q))
  match rep with
  | some q =>
    if slotsUsed s (fun x => x.repair) < 32 then some (q, true)
    else if bulkUsed s < 16 then some (q, false) else none
  | none =>
    match blk with
    | some q =>
      if bulkUsed s < 16 ∧ slotsUsed s (fun x => !repairWork x) < bulkLimit s then some (q, false) else none
    | none => none

def editProg (s : State) (k : Nat) (f : Prog → Prog) : State :=
  { s with weight := { s.weight with queue := s.weight.queue.map (fun q => if q.started && progKey q == k then f q else q) } }

/-! ### Programming (R279, R281) -/

/-- The write count rises by 1; WORN is raised when it first exceeds 10,000 (R281). -/
def countWrite (s : State) (k : Nat) : State :=
  let a := s.array k
  let s1 := s.setArray k { a with writeCnt := sat 16 (a.writeCnt + 1) }
  if a.writeCnt = 10000 then raise s1 pgWeight 4 else s1

/-- Marks the queued programming of an array as started, in its slot. -/
def markStarted (q : Prog) (repair : Bool) : List Prog → List Prog
  | [] => []
  | x :: xs => if x = q then { x with started := true, repair := repair, out := true } :: xs else x :: markStarted q repair xs

/-- Steps 2 to 4 of R279: the tile's codes are copied to the core, the record reads PROGRAMMING, and the 528 columns are written, the
check columns with the digits of the tile's row sums and the reference columns with their patterns (R34, R37); an erasure
leaves every cell at level 0. -/
def startProg (s : State) (q : Prog) (repair : Bool) : State :=
  let k := progKey q
  let a := s.array k
  let t := progTile s q
  let y : ArrayUnit := match progImage s q with
    | none => { a with edition := 0, tile := 0xFFFFFFFF, cells := [] }
    | some im => { a with edition := im.edition, tile := t, cells := programmedCells (im.code t) }
  let z : ArrayUnit := { y with resState := .programming, resPart := q.part, recOk := true, verified := false, fenced := true }
  let s1 := { s.setArray k z with weight := { s.weight with queue := markStarted q repair s.weight.queue } }
  countWrite s1 k

/-- WRITE_SLOT_START (R280): a free write slot takes the next queued programming. -/
def execWriteSlotStart (s : State) : Host.Outcome State Fault Refusal :=
  match chooseProg s with
  | none => .next s
  | some (q, repair) => .next (startProg s q repair)

/-- Junction temperature at a core, in 1/16 degree C: that of the sensor beside it (R380). -/
def coreTemp (s : State) (c : Nat) : Int := (s.sensor (coreRow c / 2 * 18 + coreCol c / 2)).reading

/-- a_A of R36 in units of 2^-15: 1 / (1 + alpha * (T - T_cal)), rounded either way (log entry 5). -/
def expectedGain (s : State) (k : Nat) : Int × State :=
  let d := 160000 + alpha s * (coreTemp s (k / 32) - temp12 (s.pcore (k / 32)).tCal)
  roundFree s (32768 * 160000) d.toNat

/-- What R36 sets when an array has been written, and R289 when new trims take effect: the expected gain, no offset, no tracking. -/
def resetCorrections (s : State) (k : Nat) : State :=
  let g := expectedGain s k
  g.2.setArray k { g.2.array k with gain := g.1.toNat, offs := 0, trackValid := false }

/-- What a programming resets beside the corrections: the spread (R284), and the window of the earlier contents. -/
def resetSpread (s : State) (k : Nat) : State :=
  s.setArray k { s.array k with devs := [0, 0, 0, 0, 0, 0, 0], sums := TrackSums.zero }

/-- Removes the programming that holds a slot for array `k`. -/
def dropStarted (s : State) (k : Nat) : State :=
  { s with weight := { s.weight with queue := s.weight.queue.filter (fun q => !(q.started && progKey q == k)) } }

/-- A rolling change of a partition ends when nothing of it is left to program (R294). -/
def endRolling (s : State) (p : Nat) : State :=
  if (s.part p).change = .rolling
      ∧ !s.weight.queue.any (fun q => q.part == p && (q.why == .rolling || q.why == .takeover || q.why == .migration)) then
    raise (s.updPart p (fun x => { x with change := .none })) pgWeight 1
  else s

/-- Partitions whose plan a physical core runs. -/
def coreParts (s : State) (c : Nat) : List Nat := ((runsOn s c).map (fun l => (s.scribe l).part)).dedup

/-- A fault is classified permanent (R256, R273, R274): counted, PERMANENT raised. -/
def notePermanent (s : State) (ps : List Nat) : State :=
  raiseAll { s with integ := { s.integ with permanents := sat 16 (s.integ.permanents + 1) } }
    ((pgInteg, 4) :: ps.map (fun p => (pgFunc p, 8)))

/-- A permanent array fault (R257): the core migrates and then becomes FENCED; with no spare free the array stays fenced. -/
def permanentArray (s : State) (k : Nat) : State :=
  let c := k / 32
  let s1 := notePermanent s (coreParts s c)
  if (s1.pcore c).kind = .active then (startMigration s1 c .migrateFence).2 else s1

/-- An array has been erased (R282). -/
def finishErase (s : State) (k : Nat) : State :=
  dropStarted (s.setArray k { s.array k with resState := .empty, due := false }) k

/-- Step 6 of R279, agreement: the record becomes RESIDENT. A spare programmed with an edition that its partition no longer serves
is queued as a core of the change (R295). -/
def finishProg (s : State) (k : Nat) (q : Prog) : State :=
  let s1 := s.setArray k { s.array k with resState := .resident, verified := true, due := false }
  let s2 := dropStarted (resetSpread (resetCorrections s1 k) k) k
  let w := s2.weight
  let s3 := match q.why with
    | .refresh => { s2 with weight := { w with refreshDone := sat 16 (w.refreshDone + 1) } }
    | .shadow => { s2 with weight := { w with shadows := w.shadows ++ (q.shadowOf.map (fun o => (k, o))).toList } }
    | _ => s2
  let x := s3.part q.part
  if (q.why = .takeover ∨ q.why = .migration) ∧ !q.fromNext ∧ x.edition ≠ 0 ∧ (s3.array k).edition ≠ x.edition then
    queueProg s3 (newProg k .rolling q.part q.tile false)
  else s3

/-- Step 6 of R279, second disagreement: the record becomes FAILED. -/
def failProg (s : State) (k : Nat) : State :=
  let s1 := dropStarted (s.setArray k { s.array k with resState := .failed }) k
  permanentArray (raise s1 pgWeight 3) k

/-- WRITE_SLOT_DONE (R279): program-and-verify of an array completes; `ok` says that the read-back agrees. -/
def execWriteSlotDone (key : Nat) (ok : Bool) (s : State) : Host.Outcome State Fault Refusal :=
  match s.weight.queue.find? (fun q => q.started && progKey q == key) with
  | none => .next s
  | some q =>
    if q.why = .erase then .next (finishErase s key)
    else if ok then .next (endRolling (finishProg s key q) q.part)
    else if q.tries = 0 then .next (countWrite (editProg s key (fun x => { x with tries := 1 })) key)
    else .next (endRolling (failProg s key) q.part)

/-! ### Orders (R282, R285, R290, R292, R441) -/

/-- Logical cores of a partition that hold a physical core of their own: neither HOSTED nor without a core. -/
def ownCores (s : State) (p : Nat) : List Nat :=
  let c := (s.part p).cfg
  ((List.range c.lcount).map (· + c.lbase)).filter (fun l =>
    (s.remapOf l).mode == .arrays || (s.remapOf l).mode == .fairCopy)

/-- Array keys of a partition, in ascending rank of the core and array. -/
def ownArrays (s : State) (p : Nat) : List Nat :=
  (ownCores s p).flatMap (fun l => (List.range 32).map (fun n => 32 * (s.remapOf l).pcore + n))

/-- Drops what is queued for a partition and has not started. -/
def dropQueued (s : State) (p : Nat) : State :=
  { s with weight := { s.weight with queue := s.weight.queue.filter (fun q => q.started || q.part != p) } }

/-- Queues the erasure of arrays (R282). -/
def queueErase (s : State) (p : Nat) (ks : List Nat) : State :=
  ks.foldl (fun t k => queueProg t (newProg k .erase p 0xFFFFFFFF false)) s

/-- The partition's arrays are erased and both image slots emptied (R282, R334). -/
def erasePart (s : State) (p : Nat) : State :=
  let s1 := queueErase (dropQueued s p) p (ownArrays s p)
  s1.updPart p (fun x => { x with curImage := none, nextImage := none, edition := 0, edDigest := 0#256, change := .none,
                                  rollWait := false, rollRaised := false, noAdapter := false })

/-- ERASE (R282, R441). -/
def execErase (src : Nat) (data : W32) (s : State) : Host.Outcome State Fault Refusal :=
  .next (weightOrder src data 7 (fun p t =>
    let x := t.part p
    if !partExists t p || x.plan.isSome || partChanging x then weightResult t 7 else weightResult (erasePart t p) 0) s)

/-- The programmings of an offline change: what NEXT places, then the erasures of what it does not place (R290). -/
def queueOffline (s : State) (p : Nat) (im : Image) : State :=
  let ks := ownArrays s p
  let s1 := ks.foldl (fun t k => match placedTile t im k with
    | some tile => queueProg t (newProg k .offline p tile true)
    | none => t) (dropQueued s p)
  queueErase s1 p (ks.filter (fun k => (placedTile s im k).isNone && (s.array k).resState == .resident))

/-- PROGRAM (R290, R441). -/
def execProgram (src : Nat) (data : W32) (s : State) : Host.Outcome State Fault Refusal :=
  .next (weightOrder src data 4 (fun p t =>
    let x := t.part p
    if !partExists t p then weightResult t 7
    else if slotBeingRead t p false then weightResult t 11
    else
      match x.nextImage with
      | none => weightResult t 7
      | some im =>
        if x.plan.isSome || partChanging x then weightResult t 7
        else weightResult ((queueOffline t p im).updPart p (fun y => { y with change := .offline })) 0) s)

/-- ROLL (R292, R441). -/
def execRoll (src : Nat) (data : W32) (s : State) : Host.Outcome State Fault Refusal :=
  .next (weightOrder src data 5 (fun p t =>
    let x := t.part p
    let at_ := t.pair pgWeight 0x054 0x058
    if !partExists t p then weightResult t 7
    else if slotBeingRead t p false then weightResult t 11
    else
      match x.nextImage with
      | none => weightResult t 7
      | some im =>
        if x.plan.isNone || partChanging x then weightResult t 7
        else if (x.curImage.map (fun c => (c.ntile, c.dir))) ≠ some (im.ntile, im.dir) then weightResult t 9
        else if at_ < t.stroke.number + 2 then weightResult t 10
        else weightResult (t.setPart p { x with change := .rollPending at_, noAdapter := true }) 0) s)

/-- The arrays that a REFRESH names: RESIDENT arrays of the partition on the core (R285). -/
def refreshKeys (s : State) (p : Nat) (d : W32) : List Nat :=
  let c := (d.extractLsb' 9 11).toNat
  let ns := if d.getLsbD 25 then List.range 32 else [(d.extractLsb' 20 5).toNat]
  (ns.map (fun n => 32 * c + n)).filter (fun k =>
    decide (c < numPcores) && (s.array k).resState == .resident && (s.array k).resPart == p
    && !s.weight.queue.any (fun q => progKey q == k))

/-- A refresh that the host orders falls due with the order (R280, R285). -/
def orderRefresh (s : State) (k : Nat) : State :=
  let a := s.array k
  let n := if a.due then a.dueNo else s.weight.dueCtr + 1
  queueProg { s with weight := { s.weight with dueCtr := max n s.weight.dueCtr } }
    { newProg k .refresh a.resPart a.tile false with dueNo := n }

/-- REFRESH (R285, R441). -/
def execRefresh (src : Nat) (data : W32) (s : State) : Host.Outcome State Fault Refusal :=
  .next (weightOrder src data 6 (fun p t =>
    if !partExists t p then weightResult t 7
    else if slotBeingRead t p true then weightResult t 11
    else
      weightResult ((refreshKeys t p data).foldl orderRefresh t) 0) s)

/-! ### Verification after bring-up (R283, R353) -/

/-- ARRAY_VERIFY_DONE (R283): read-back verification of an array against CURRENT. An array whose record is PROGRAMMING, does not match, or
names another edition is found without a read-back; a tile that cannot be read waits for its reload (R277). -/
def execArrayVerifyDone (key : Nat) (ok : Bool) (s : State) : Host.Outcome State Fault Refusal :=
  let a := s.array key
  let x := s.part a.resPart
  let whole := a.resState == .resident && a.recOk && a.edition == x.edition
  if (a.resState ≠ .resident ∧ a.resState ≠ .programming) ∨ a.verified ∨ x.curImage.isNone
      ∨ s.weight.queue.any (fun q => progKey q == key) ∨ (whole = true ∧ tileLost s a.resPart (some a.tile) = true) then .next s
  else if ok && whole then .next (s.setArray key { a with verified := true })
  else .next (raise (queueProg s (newProg key .verify a.resPart a.tile false)) pgWeight 5)

end Sys2Proof.Machine
end

