-- ==== Sys2Proof/Machine/Cal.lean ====
section
/-! DEFINITION. Calibration of arrays and training of trim adapters (R42 to R44, R67 to R71, R76, R265, R288, R289, R298). -/

namespace Sys2Proof.Machine

/-! ### Idle slots (R265) -/

/-- A plan index at or beyond NCORE (R131). -/
def idleIndex (s : State) (l : Nat) : Bool := match (s.part (s.scribe l).part).plan with
  | some pl => decide (pl.ncore ≤ (s.scribe l).pindex)
  | none => true

/-- The plan of logical core `l` waits in WSTRK, has halted, or is idle. -/
def waiting (s : State) (l : Nat) : Bool :=
  let m := (s.scribe l).mode
  (s.part (s.remapOf l).part).plan.isNone || idleIndex s l || m == .ready || m == .halted

/-- A physical core is in an idle slot (R265). -/
def idleCore (s : State) (c : Nat) : Bool :=
  match (s.pcore c).kind with
  | .spare => true
  | .active => (runsOn s c).all (waiting s)
  | .taking => (runsOn s c).all (waiting s)
  | .bad | .fenced => false

/-- `cycles` of a core's region clock end before the next boundary; without strokes there is none (R77, R88, R265). -/
def fitsStroke (s : State) (c cycles : Nat) : Bool :=
  !strokesRun s
  || decide (s.stroke.count * 1088 * (s.region (coreRegion c)).div + cycles * 1600
      ≤ s.stroke.periodAct * 1088 * (s.region (coreRegion c)).div)

/-- An evaluation of array `k` may start in an idle slot. -/
def idleArray (s : State) (k : Nat) : Bool :=
  idleCore s (k / 32) && (s.array k).eval.isNone && fitsStroke s (k / 32) 648

/-! ### Calibration orders (R288, R298) -/

/-- An array of the order is done with: its result in `CAL.LAST` and `CAL.RESULT`, and its event. -/
def calResult (s : State) (k : Nat) (pass outRange : Bool) (why : Nat) : State :=
  let c := s.cal
  raise { s with cal := { c with
    passed := if pass then sat 16 (c.passed + 1) else c.passed
    failed := if pass then c.failed else sat 16 (c.failed + 1)
    lastPcore := k / 32 % 2048, lastArray := k % 32, lastPass := pass, lastOutRange := outRange, lastWhy := why } }
    pgCal (if pass then 0 else 1)

/-- The array holds a verified edition (R42), its record is RESIDENT in the edition that its partition serves, and no rewrite is pending
(R288, R295). -/
def calReady (s : State) (k : Nat) : Bool :=
  let a := s.array k
  let x := s.part a.resPart
  a.resState == .resident && a.recOk && a.verified && x.edition != 0 && a.edition == x.edition
  && !s.weight.queue.any (fun q => progKey q == k)

/-- Arrays that an order names. -/
def calScope (s : State) (d : W32) : List Nat :=
  let c := (d.extractLsb' 0 11).toNat
  match (d.extractLsb' 16 2).toNat with
  | 0 => [32 * c + (d.extractLsb' 11 5).toNat]
  | 1 => (List.range 32).map (fun n => 32 * c + n)
  | 2 => ownArrays s (d.extractLsb' 18 5).toNat
  | _ => []

/-- An order is in force, or its first core cannot be calibrated: the reason for which every array of the order is refused. -/
def calRefusal (s : State) (d : W32) : Nat :=
  let c := (d.extractLsb' 0 11).toNat
  if s.cal.busy then 2
  else if (d.extractLsb' 16 2).toNat < 2 ∧ (numPcores ≤ c ∨ (s.pcore c).kind ≠ .active) then 3
  else 0

def startCal (d : W32) (s : State) : State :=
  let ks := calScope s d
  let why := calRefusal s d
  if why ≠ 0 then ks.foldl (fun t k => calResult t k false false why) s
  else
    let good := ks.filter (calReady s)
    let s1 := (ks.filter (fun k => !calReady s k)).foldl (fun t k => calResult t k false false 1) s
    { s1 with cal := { s1.cal with busy := !good.isEmpty, left := good, evals := 0 } }

/-- CAL_ORDER (R288). -/
def execCalOrder (src : Nat) (data : W32) (s : State) : Host.Outcome State Fault Refusal :=
  .next (armedWrite s src pgCal 0x040 data (startCal data))

/-- Calibration vector `n` (R42): drive values from -64 to 64, which the manual does not list (log entry 92). -/
def calVector (n : Nat) : List Int := (List.range 512).map (fun i => clampInt (Config.calDrive n i) (-64) 64)

/-- Calibration evaluation `n` of an array: vector n of the first measurement, or n - 64 of its repetition, at range 4 (R42). -/
def calEval (s : State) (k n : Nat) : Eval :=
  let a := s.array k
  { kind := .calib, lcore := numLcores, index := 0, dest := 0, drive := .narrow (calVector (n % 64)), range := 4, gain := a.gain,
    offs := a.offs, trims := a.trims, thresh := [], seed := 0#64, fair := false, wanted := false }

/-- A proof part that has run on the array and is not judged yet holds a calibration of it back no longer than its evaluation; while the
array is calibrated its proof parts wait (R288). -/
def calibrates (s : State) (k : Nat) : Bool := s.cal.busy && s.cal.left.head? == some k

/-- CALIBRATION_EVALUATION (R42, R288): one of the 128 evaluations of the array at hand starts, in an idle slot; it occupies the array
until its delivery. A lost tile waits for its reload (R277). -/
def execCalibrationEvaluation (key : Nat) (s : State) : Host.Outcome State Fault Refusal :=
  let c := s.cal
  let a := s.array key
  if calibrates s key ∧ c.evals < 128 ∧ idleArray s key = true
      ∧ !tileLost s a.resPart (some a.tile) then
    .next (occupy { s with cal := { c with evals := c.evals + 1 } } key (calEval s key c.evals) 1)
  else .next s

/-! ### The end of a calibration (R42 to R44, R289) -/

/-- Trim codes of 527 columns, gain then offset of each: those of a measurement; a column it does not name has 0. -/
def trimCodes (xs : List Int) : List Int := (List.range 1054).map (fun i => xs.getD i 0)

/-- The two measurements predict codes within 0.5 code of each other: |o1 - o2| / 16 + 128 |g1 - g2| / 2048 <= 0.5 (R42). -/
def trimsAgree (x y : List Int) : Bool :=
  (List.range 527).all (fun j =>
    decide (|x.getD (2 * j) 0 - y.getD (2 * j) 0| + |x.getD (2 * j + 1) 0 - y.getD (2 * j + 1) 0| ≤ 8))
/-- Every fitted trim lies in its field range (R34). -/
def trimsFit (x : List Int) : Bool := x.all (fun v => decide (-128 ≤ v) && decide (v ≤ 127))

/-- The next array of the order, if any. -/
def nextCal (s : State) : State :=
  let l := s.cal.left.tail
  { s with cal := { s.cal with left := l, busy := !l.isEmpty, evals := 0 } }

/-- Stores accepted trims: either of the two agreeing measurements (log entry 33), with the junction temperature (R43). -/
def storeTrims (s : State) (key : Nat) (x y : List Int) : State :=
  let a := s.array key
  let xs := if s.freeNat 2 = 0 then x else y
  let s1 := s.nextFree.setArray key { a with trimStored := true, trimNew := true, nextTrims := xs }
  let c := s1.pcore (key / 32)
  let t := (coreTemp s1 (key / 32) % 4096).toNat
  s1.setPcore (key / 32) { c with tCal := t, tCalRec := t }

/-- CALIBRATION_DONE (R42, R289): the 128 evaluations of an array have ended and its two measurements are fitted: `first` and `second`
are the fitted trims, whose fit the manual leaves to the device (log entry 33). -/
def execCalibrationDone (key : Nat) (first second : List Int) (s : State) : Host.Outcome State Fault Refusal :=
  if calibrates s key ∧ s.cal.evals = 128 ∧ (s.array key).eval = none then
    let x := trimCodes first
    let y := trimCodes second
    let s1 := nextCal s
    if !calReady s key then .next (calResult s1 key false false 1)
    else if !(trimsFit x && trimsFit y) then .next (calResult s1 key false true 0)
    else if !trimsAgree x y then .next (calResult s1 key false false 4)
    else .next (calResult (storeTrims s1 key x y) key true false 0)
  else .next s

/-! ### Trim adapters (R67 to R71, R76) -/

def TrimVer.none : TrimVer := { rank := 0, nIn := 0, nOut := 0, a := [], alpha := [], b := [], beta := [] }

def Trim.reset : Trim :=
  { en := false, rankMax := 16, active := false, last := 0, accepted := 0, rejected := 0, version := TrimVer.none, offset := 0,
    pending := none, number := 0, masters := none, captures := [], tiles := [], clearDue := false }

def State.trim (s : State) (p k : Nat) : Trim := Tbl.getD (s.part p).trims k Trim.reset
def State.setTrim (s : State) (p k : Nat) (t : Trim) : State :=
  s.updPart p (fun x => { x with trims := Tbl.set x.trims k t })

/-- Clears a projection's trim adapter to rank 0; its masters and captures are discarded (R70). What was in service or accepted:
TA_CLEARED. -/
def clearTrim (p : Nat) (s : State) (k : Nat) : State :=
  let t := s.trim p k
  let bare : Trim := { Trim.reset with en := t.en, rankMax := t.rankMax, last := t.last, rejected := t.rejected }
  if t.active ∨ t.version.rank ≠ 0 ∨ t.pending.isSome then
    raise (s.setTrim p k { bare with last := 3, rejected := 0 }) pgCal 4
  else s.setTrim p k bare

/-- An array of one of these tiles has been programmed, refreshed, recalibrated or remapped: the trim adapters of the projections that it
belongs to are due to be cleared (R70). Which projection a tile belongs to, the captures of its training show. -/
def clearByTiles (s : State) (p : Nat) (tiles : List Nat) : State :=
  s.updPart p (fun x => { x with trims := Tbl.mapVal (fun _ t =>
    if t.tiles.any (fun k => tiles.contains k) then { t with clearDue := true } else t) x.trims })

end Sys2Proof.Machine
end

