-- ==== Sys2Proof/Machine/Orders.lean ====
section
/-! DEFINITION. Orders of host software on requests and handles: their acceptance, what each does when it takes effect, and the
events of parked requests and handles (R223 to R226, R228, R229, R231 to R234, R240, R241). -/

namespace Sys2Proof.Machine

/-! ### The order register (R224, R225, R241) -/

/-- The fields of `REQ.ORDER` with the operation `op` (R225). -/
def decodeOrder (s : State) (op : Nat) (d : W64) : Order :=
  { slot := (d.extractLsb' 0 16).toNat, gen := (d.extractLsb' 16 16).toNat, op := op,
    mode := (d.extractLsb' 36 2).toNat, prio := (d.extractLsb' 38 3).toNat, tag := (d.extractLsb' 41 23).toNat,
    stroke := s.stroke.number, count := s.stroke.count, isHandle := false }

/-- The fields of `REQ.HORDER` (R241). -/
def decodeHorder (s : State) (d : W64) : Order :=
  { slot := (d.extractLsb' 0 14).toNat, gen := (d.extractLsb' 14 16).toNat, op := 1, mode := 0, prio := 0,
    tag := (d.extractLsb' 32 32).toNat, stroke := s.stroke.number, count := s.stroke.count, isHandle := true }

/-- The ORDER_DONE entry of an order (R223, R225); that of a cancel is never lost. -/
def orderDone (s : State) (p : Nat) (o : Order) (code : Nat) (value : W64) : State :=
  complete s p (!o.isHandle && o.op == 1)
    { tag := BitVec.ofNat 64 o.tag, slot := o.slot, gen := o.gen, kind := 4, code := code, value := value, stroke := s.stroke.number }

/-- `REQ.SCROLL_ERR.BAD_ORDER` counts an order ignored or dropped. -/
def countBadOrder (s : State) (p : Nat) : State :=
  s.updPart p (fun x => { x with badOrder := sat 16 (x.badOrder + 1) })

def orderQueueMax : Nat := 1024

/-- The job of a partition is halted, whatever the cause (R79, R82, R93, R148, R226). -/
def jobHalted (s : State) (p : Nat) : Bool := match s.job p with
  | some j => j.halted
  | none => false

/-- An order other than a cancel enters the partition's queue (R224). -/
def queueOrder (s : State) (p : Nat) (o : Order) : State :=
  if notEntry s p then orderDone s p o 8 (seqValue s 0)
  else
    let x := s.part p
    if orderQueueMax ≤ x.orders.length then raise (countBadOrder s p) (pgReq p) 4
    else s.setPart p { x with orders := x.orders ++ [o] }

/-- An order names the request that last ended in its slot (R226): END code and records. -/
def endedMatch (x : Slot) (gen : Nat) : Option (Nat × Nat) := match x.lastEndGen with
  | some (g, e) => if g = gen then some (e, x.lastEndSeq) else none
  | none => none

/-- A slot of the partition holds a request of the generation. -/
def liveMatch (s : State) (p n gen : Nat) : Bool :=
  ownSlot (s.part p) n && (s.slot n).part == p && (s.slot n).state != .free && (s.slot n).gen == gen

/-- A cancel is accepted: its cancel point is this instant (R224, R226, R229). The time from its arrival, at most 2 µs, is the
device's (log entry 3). -/
def acceptCancel (s : State) (p : Nat) (o : Order) : State :=
  let v := s.serve
  let s0 := { s with serve := { v with cancelLat := max v.cancelLat (s.freeNat 2001) } }.nextFree
  if notEntry s0 p then orderDone s0 p o 8 (seqValue s 0)
  else
    let x := s0.slot o.slot
    if liveMatch s0 p o.slot o.gen then
      if x.cancel.isSome then orderDone s0 p o 3 (lastSeq s x)
      else
        let s1 := s0.setSlot o.slot { x with cancel := some (s.stroke.number, s.stroke.count), cancelTag := o.tag,
                                             copyDone := false, pagesReady := false }
        { s1 with serve := { s1.serve with cancels := sat 16 (s1.serve.cancels + 1) } }
    else
      match (if ownSlot (s0.part p) o.slot then endedMatch x o.gen else none) with
      | none => orderDone s0 p o 2 (seqValue s 0)
      | some (e, n) =>
        if e = 1 ∨ e = 2 ∨ e = 5 then
          let s1 := orderDone s0 p o 1 (seqValue s n)
          { s1 with serve := { s1.serve with late := sat 16 (s1.serve.late + 1) } }
        else orderDone s0 p o 3 (seqValue s n)

/-- A write of `REQ.ORDER` or `REQ.HORDER`, at offset `off`, as one 8-byte request from the partition's VF; from another
function it is captured (R224, R421). -/
def orderAccess (s : State) (src p off : Nat) (d : W64) (act : State → State) : State :=
  if !canWrite s src (pgReq p) then s
  else if src ≠ p + 1 then capture s (pgReq p) off 5 true d src
  else act s

def execCancel (src part : Nat) (data : W64) (s : State) : Host.Outcome State Fault Refusal :=
  .next (orderAccess s src part 0x078 data (fun t => acceptCancel t part (decodeOrder t 1 data)))
def execPause (src part : Nat) (data : W64) (s : State) : Host.Outcome State Fault Refusal :=
  .next (orderAccess s src part 0x078 data (fun t => queueOrder t part (decodeOrder t 2 data)))
def execResume (src part : Nat) (data : W64) (s : State) : Host.Outcome State Fault Refusal :=
  .next (orderAccess s src part 0x078 data (fun t => queueOrder t part (decodeOrder t 3 data)))
def execPriority (src part : Nat) (data : W64) (s : State) : Host.Outcome State Fault Refusal :=
  .next (orderAccess s src part 0x078 data (fun t => queueOrder t part (decodeOrder t 4 data)))

/-- RELEASE (R241); an operation other than 1 is ignored and counted. -/
def execRelease (src part : Nat) (data : W64) (s : State) : Host.Outcome State Fault Refusal :=
  .next (orderAccess s src part 0x080 data (fun t =>
    if data.extractLsb' 30 2 = 1#2 then queueOrder t part (decodeHorder t data) else countBadOrder t part))

/-! ### What an order does when it takes effect (R228, R231 to R234, R240, R241) -/

/-- Keys and position states of the private pages of a slot that hold a committed position: what a park copies, in ascending
block and then layer order (R233). -/
def parkedKeys (s : State) (p n : Nat) : List (Nat × Tbl PosState) :=
  (privateKeys s p n).filterMap (fun (key, k) => match Tbl.get? (s.part p).pages k with
    | some g =>
      let c := g.pos.filter (fun (_, st) => st == .committed)
      if c.isEmpty then none else some (key, c)
    | none => none)

/-- PAUSE by digest: one digest step follows (R228, R232). -/
def pauseDigest (s : State) (n : Nat) : State :=
  let x := s.slot n
  s.setSlot n { x with state := .digesting, before := x.state }

/-- PAUSE by park: drafts truncated, the copy begins (R228, R233). -/
def pausePark (s : State) (p n : Nat) : State :=
  let s1 := dropDrafts s p n
  let x := s1.slot n
  s1.setSlot n { x with state := .parking, before := x.state, copyDone := false }

/-- Pause mode of an order: 1 digest, 2 park (R225). -/
def pauseMode (s : State) (p : Nat) (x : Slot) (mode : Nat) : Nat :=
  if mode = 1 ∨ mode = 2 then mode
  else if x.desc.flags.testBit 3 then (if x.desc.flags.testBit 4 then 2 else 1)
  else 1 + s.field (pgReq p) 0x088 0 1

/-- PAUSE of a live request: outcome code and state after. -/
def applyPause (s : State) (p : Nat) (o : Order) : Nat × State :=
  let x := s.slot o.slot
  match x.state with
  | .prefill | .decode =>
    if pauseMode s p x o.mode = 1 then
      if (s.reg (pgReq p) 0x088).getLsbD 1 then (0, pauseDigest s o.slot) else (6, s)
    else
      let t := dropDrafts s p o.slot
      if x.desc.parkAddr = 0 ∨ x.desc.parkKib < 256 * (parkedKeys t p o.slot).length then (5, s)
      else (0, pausePark s p o.slot)
  | .digesting | .pausedDigest | .parking | .parked => (3, s)
  | .resuming | .building | .free => (4, s)

/-- RESUME of a live request (R228, R234). The pages are allocated as soon as that many are free. -/
def applyResume (s : State) (o : Order) : Nat × State :=
  let x := s.slot o.slot
  match x.state with
  | .pausedDigest => (0, s.setSlot o.slot { x with state := .resuming, resumeCtrl := 2, pagesReady := false,
                                                   pagesHeld := false })
  | .parked =>
    if x.expired then (4, s)
    else (0, s.setSlot o.slot { x with state := .resuming, resumeCtrl := 3, pagesReady := false,
                                                      pagesHeld := false })
  | .parking => (0, s.setSlot o.slot { x with state := x.before, copyDone := false, resumedOwed := true,
                                              resumedFlag := true, resumedNew := true })
  | .resuming => (3, s)
  | .prefill | .decode | .digesting | .building | .free => (4, s)

/-- A release of a handle (R240, R241). A STALE handle without users is freed as a SEALED one (log entry 40). -/
def applyRelease (s : State) (p : Nat) (o : Order) : Nat × State :=
  let h := s.handle o.slot
  if h.part ≠ p ∨ h.state = .free ∨ h.gen ≠ o.gen then (2, s)
  else
    match h.state with
    | .sealed => if h.users = 0 then (0, retireHandle s o.slot 0) else (0, s.setHandle o.slot { h with state := .releasing })
    | .stale => if h.users = 0 then (0, retireHandle s o.slot 0) else (4, s)
    | .building | .releasing | .free => (4, s)

/-- One order takes effect; `halted` says that the job is halted. -/
def applyOrder (p : Nat) (halted : Bool) (s : State) (o : Order) : State :=
  if o.isHandle then
    let r := if halted then (4, s) else applyRelease s p o
    orderDone r.2 p o r.1 (seqValue s 0)
  else
    let x := s.slot o.slot
    if liveMatch s p o.slot o.gen then
      let r :=
        if x.cancel.isSome || halted then (4, s)
        else if o.op = 2 then applyPause s p o
        else if o.op = 3 then applyResume s o
        else (0, s.setSlot o.slot { x with priority := o.prio })
      orderDone r.2 p o r.1 (lastSeq s x)
    else
      match (if ownSlot (s.part p) o.slot then endedMatch x o.gen else none) with
      | none => orderDone s p o 2 (seqValue s 0)
      | some (e, n) => orderDone s p o (if o.op = 2 ∧ e ≠ 3 then 7 else 4) (seqValue s n)

/-- The order waits: its request is held suspect (R260). -/
def orderHeld (held : List Nat) (o : Order) : Bool := !o.isHandle && held.contains o.slot

/-- Applies the orders of a partition that were accepted before the boundary of stroke `b`, in order (R225), but for those of the
requests `held`. -/
def applyOrders (s : State) (p b : Nat) (halted : Bool) (held : List Nat) : State :=
  let os := (s.part p).orders
  let due (o : Order) : Bool := decide (o.stroke < b) && !orderHeld held o
  let s1 := s.updPart p (fun x => { x with orders := os.filter (fun o => !due o) })
  (os.filter due).foldl (applyOrder p halted) s1

/-! ### Completion ring (R223) -/

def execCqConsWrite (src part : Nat) (data : W32) (s : State) : Host.Outcome State Fault Refusal :=
  .next (orderWrite s src (pgReq part) 0x06C data (fun t => flushCq (t.part part).cqQueue.length t part))

/-! ### Parked requests (R228, R233) -/

/-- The bytes of a page with only its committed positions. -/
def pageImage (g : KvPage) (c : Tbl PosState) : Mem :=
  g.data.filter (fun (a, _) => (Tbl.get? c (a / 4096)).isSome)

/-- Writes the parked pages to the park buffer, 256 KiB each. -/
def writePark (s : State) (p n : Nat) (ks : List (Nat × Tbl PosState)) : State :=
  let addr := (s.slot n).desc.parkAddr
  { s with hostOut := ks.zipIdx.foldl (fun m (kc, i) =>
      match (Tbl.get? (s.slot n).kvMap kc.1).bind (fun k => Tbl.get? (s.part p).pages k) with
      | some g => Mem.blit m (addr + 262144 * i) 262144 (pageImage g kc.2)
      | none => m) s.hostOut }

/-- PARK_COPY_DONE: the copy of a PARKING request is complete; its pages are freed at the next boundary (R228, R233). -/
def execParkCopyDone (slot : Nat) (s : State) : Host.Outcome State Fault Refusal :=
  let x := s.slot slot
  if x.state = .parking ∧ x.cancel = none ∧ hostOpen (s.part x.part) then
    let ks := parkedKeys s x.part slot
    .next ((writePark s x.part slot ks).setSlot slot { x with copyDone := true, parked := ks })
  else .next s

/-- Frees the private pages of a slot; sealed pages that it shares stay in its map (R233). -/
def freePrivate (s : State) (p n : Nat) : State :=
  (privateKeys s p n).foldl (fun t (key, k) =>
    let t1 := setMapWord (freePage t p k) p n key 0xFFFFFFFF
    t1.setSlot n { t1.slot n with kvMap := Tbl.erase (t1.slot n).kvMap key }) s

/-- Gives a page of a slot the content that the park buffer holds. -/
def restorePage (p n : Nat) (s : State) (kc : (Nat × Tbl PosState) × Nat) : State :=
  let k := Tbl.getD (s.slot n).kvMap kc.1.1 0
  let data := Mem.slice s.hostOut ((s.slot n).desc.parkAddr + 262144 * kc.2) 262144
  s.updPart p (fun x => { x with pages := Tbl.set x.pages k { part := p, owner := .priv n, pos := kc.1.2, data := data } })

/-- Pages that a resume needs: those of the park buffer, or the next block on every layer (R232, R233). -/
def resumeKeys (s : State) (p : Nat) (x : Slot) : List Nat :=
  if x.resumeCtrl = 3 then x.parked.map (·.1)
  else (List.range (layersOf s p)).map (fun ly => layersOf s p * (x.position / 64) + ly)

/-- A RESUMING request takes the pages that it needs, with their map words, once that many are free (R228, R232 to R234): in an intake
window or at a boundary, since the serving area and the page counts change at no other time (R216, R246). One whose park buffer could
not be read ends, with an END code that the manual does not fix (R212; log entry 41). -/
def resumePages (p : Nat) (s : State) (n : Nat) : State :=
  let x := s.slot n
  if x.state ≠ .resuming ∨ x.cancel ≠ none then s
  else if x.readFailed then endDmaError s p n
  else if x.pagesHeld ∨ freePages s p < (resumeKeys s p x).length then s
  else
    let s1 := (resumeKeys s p x).foldl (fun t key => allocPage t p n key) s
    s1.setSlot n { s1.slot n with pagesHeld := true }

/-- RESUME_READY: the pages of a RESUMING request, once it has them, are ready, for a park read back from the park buffer. Host software
keeps the buffer as the device wrote it (R212). -/
def execResumeReady (slot : Nat) (ok : Bool) (s : State) : Host.Outcome State Fault Refusal :=
  let x := s.slot slot
  let p := x.part
  if x.state = .resuming ∧ x.cancel = none ∧ x.pagesReady = false ∧ x.pagesHeld = true ∧ x.readFailed = false
      ∧ (x.resumeCtrl = 2 ∨ hostOpen (s.part p)) then
    if x.resumeCtrl = 3 ∧ !ok then .next (s.setSlot slot { x with readFailed := true })
    else
      let s1 := if x.resumeCtrl = 3 then x.parked.zipIdx.foldl (restorePage p slot) s else s
      .next (s1.setSlot slot { s1.slot slot with pagesReady := true, parked := [] })
  else .next s

/-- PARK_TTL_EXPIRED: the time to live of a PARKED request has elapsed and no RESUME was accepted before (R233); the request ends
at the next boundary (R228, R246). -/
def execParkTtlExpired (slot : Nat) (s : State) : Host.Outcome State Fault Refusal :=
  let x := s.slot slot
  let resumed := (s.part x.part).orders.any (fun o => !o.isHandle && o.op == 3 && o.slot == slot && o.gen == x.gen)
  if x.state = .parked ∧ resumed = false ∧ x.expired = false then
    .next (raise (s.setSlot slot { x with expired := true }) (pgReq x.part) 6)
  else .next s

/-- HANDLE_TTL_EXPIRED: a SEALED handle without users reaches its time to live; it is freed at the next boundary (R240, R246). -/
def execHandleTtlExpired (handle : Nat) (s : State) : Host.Outcome State Fault Refusal :=
  let h := s.handle handle
  if h.state = .sealed ∧ h.users = 0 ∧ h.ttl ≠ 0 ∧ h.expired = false then
    .next (raise (s.setHandle handle { h with expired := true }) (pgReq h.part) 7)
  else .next s

end Sys2Proof.Machine
end

