-- ==== Sys2Proof/Machine/Intake.lean ====
section
/-! DEFINITION. The intake window: descriptors, orders, the request list and the serving area (R213 to R218, R221, R237 to R239,
R336). -/

namespace Sys2Proof.Machine

/-! ### Descriptors (R214) -/

def decodeDesc (b : List Byte) : Desc :=
  { kind := numAt b 0 1, withdraw := numAt b 1 1, flags := numAt b 2 1, priority := numAt b 3 1, adapter := numAt b 4 2,
    specLen := numAt b 6 1, hostTag := BitVec.ofNat 64 (numAt b 8 8), handle := BitVec.ofNat 64 (numAt b 0x10 8),
    promptAddr := numAt b 0x18 8, promptLen := numAt b 0x20 4, maxTokens := numAt b 0x24 4, scrollAddr := numAt b 0x28 8,
    consumedAddr := numAt b 0x30 8, standbyAddr := numAt b 0x38 8, standbyConsumed := numAt b 0x40 8,
    scrollLen := numAt b 0x48 4, ttlMs := numAt b 0x4C 4, parkAddr := numAt b 0x50 8, parkKib := numAt b 0x58 4,
    seed := BitVec.ofNat 64 (numAt b 0x60 8), params := bytesAt b 0x80 128,
    reservedOk := zeroAt b 7 1 && zeroAt b 0x5C 4 && zeroAt b 0x68 24 && decide (numAt b 2 1 < 32) }

def speculative (d : Desc) : Bool := d.flags.testBit 0
def namesAdapter (d : Desc) : Bool := d.flags.testBit 1
def namesHandle (d : Desc) : Bool := d.flags.testBit 2

def isPow2 (n : Nat) : Bool := n != 0 && 2 ^ Nat.log2 n == n

/-- BAD_DESC of R215. -/
def badDesc (d : Desc) : Bool :=
  (d.kind != 1 && d.kind != 2) || !d.reservedOk || decide (7 < d.priority) || d.promptAddr % 64 != 0 || d.promptLen == 0
  || (speculative d && (d.specLen == 0 || decide (15 < d.specLen)))
  || (if d.kind = 1 then
        d.scrollAddr % 4096 != 0 || d.consumedAddr % 8 != 0 || d.standbyAddr % 4096 != 0 || d.standbyConsumed % 8 != 0
        || d.parkAddr % 4096 != 0 || !isPow2 d.scrollLen || decide (d.scrollLen < 32) || decide (65536 < d.scrollLen)
        || d.maxTokens == 0
      else speculative d || namesAdapter d || namesHandle d)

/-- The handle entry that a descriptor names, in any state (R215). -/
def descHandle (s : State) (p : Nat) (d : Desc) : Option Nat := if namesHandle d then findHandle s p d.handle else none
def descPrefix (s : State) (p : Nat) (d : Desc) : Nat := match descHandle s p d with
  | some h => (s.handle h).prefixLen
  | none => 0

def freeSlotList (s : State) (p : Nat) : List Nat :=
  let c := (s.part p).cfg
  ((List.range c.scount).map (· + c.sbase)).filter (fun n => (s.slot n).state == .free)
/-- Free handle entries. In a pair the device at the lower coordinate issues even indices and its buddy odd ones (R322). -/
def freeHandleList (s : State) (p : Nat) : List Nat :=
  (List.range numHandles).filter (fun h => (s.handle h).state == .free
    && ((s.part p).pair.state != .paired || h % 2 == (if s.link.coord < s.link.buddy then 0 else 1)))

/-- Pages for the prompt and one further block of 64 positions, on every layer, beyond the blocks that lie whole in the prefix
(R215, R239). -/
def descPages (s : State) (p pre : Nat) (d : Desc) : Nat :=
  layersOf s p * ((pre + d.promptLen + 63) / 64 + 1 - pre / 64)

/-- The adapter slot of a descriptor is empty (R74); none may be named while an edition rolls (R292). -/
def noAdapter (x : Part) (d : Desc) : Bool :=
  x.noAdapter || (match adapterAt x d.adapter with
    | some a => !a.visible
    | none => true)

/-- The refusal code of a descriptor, 0 where it is taken in (R215). -/
def refusal (s : State) (p : Nat) (d : Desc) : Nat :=
  let x := s.part p
  let pre := descPrefix s p d
  let hs := (descHandle s p d).map (fun h => ((s.handle h).state, (s.handle h).expired, (s.handle h).users))
  if badDesc d then 1
  else if maxPosOf s p < pre + d.promptLen then 2
  else if namesAdapter d && noAdapter x d then 3
  else if namesHandle d && (hs.isNone || hs.any (fun (st, e, _) => e || st == .building || st == .free)) then 4
  else if namesHandle d && hs.any (fun (st, _, _) => st == .releasing || st == .stale) then 5
  else if namesHandle d && hs.any (fun (_, _, u) => decide (65535 ≤ u)) then 6
  else if d.kind = 2 ∧ x.cfg.quota ≤ (handlesOf s p).length then 7
  else if (freeSlotList s p).isEmpty then 8
  else if freePages s p < descPages s p pre d then 9
  else 0

/-! ### Taking in (R213, R216, R228, R237 to R239) -/

/-- A free slot, or handle entry, of the device's choice (log entry 3). -/
def pickFrom (s : State) (k : Nat) (ls : List Nat) : Nat := ls.getD (s.openAt k (max 1 ls.length)) 0

/-- The entry of a descriptor that became no request: the manual gives it no slot and no generation. -/
def turnedAway (s : State) (p kind code : Nat) (tag : W64) : State :=
  complete s p false { tag := tag, slot := s.openAt 1 65536, gen := s.openAt 2 65536, kind := kind, code := code,
                       value := seqValue s 0, stroke := s.stroke.number }

/-- Every KV map word of a slot reads 0xFFFF_FFFF, but those of shared prefix pages (R216, R239). -/
def initMap (s : State) (p n : Nat) (pages : Tbl Nat) : State :=
  let s1 := scratchWrite s p (mapEntry s p n 0) (List.replicate (4 * layersOf s p * maxBlkOf s p) 0xFF#8)
  pages.foldl (fun t (key, k) => setMapWord t p n key k) s1

/-- The handle entry of a registration (R237, R240). -/
def newHandle (s : State) (p h n : Nat) (d : Desc) : State :=
  let x := s.part p
  let s1 := s.setHandle h { Handle.reset with
    state := .building, gen := (s.handle h).gen, part := p, count29 := x.regCount % 2 ^ 29, prefixLen := d.promptLen,
    ttl := d.ttlMs, edition := x.edition, hostTag := d.hostTag, slot := n, slotGen := (s.slot n).gen }
  s1.setPart p { x with regCount := x.regCount + 1 }

/-- A descriptor that passes is taken into a free slot (R213, R228). -/
def admitDesc (s : State) (p : Nat) (d : Desc) : State :=
  let n := pickFrom s 0 (freeSlotList s p)
  let h := pickFrom s 1 (freeHandleList s p)
  let old := s.slot n
  let gen := (old.gen + 1) % 65536
  let pre := descPrefix s p d
  let user := descHandle s p d
  let map := match user with
    | some k => (s.handle k).pages
    | none => []
  let y : Slot := { Slot.reset with state := if d.kind = 2 then .building else .prefill, gen := gen, part := p, desc := d }
  let y1 : Slot := { y with priority := d.priority, prefixLen := pre, position := pre, lastListed := s.stroke.number }
  let y2 : Slot := { y1 with handle := if d.kind = 2 then some h else user, kvMap := map, reserved := descPages s p pre d }
  let y3 : Slot := { y2 with lastEndGen := old.lastEndGen, lastEndSeq := old.lastEndSeq }
  let s1 := { s.setSlot n y3 with freeCtr := s.freeCtr + 4 }
  let s2 := if d.kind = 2 then newHandle s1 p h n d else
    match user with
    | some k => s1.setHandle k { s1.handle k with users := (s1.handle k).users + 1 }
    | none => s1
  let s3 := initMap s2 p n map
  let s4 := { s3 with serve := { s3.serve with intakes := (s3.serve.intakes + 1) % 2 ^ 32 } }
  complete s4 p false (slotEntry s4 n 1 0 d.hostTag s4.stroke.number)

/-- One descriptor of the ring: withdrawn, refused, or taken in (R213, R215). -/
def takeDescriptor (p : Nat) (s : State) (bytes : Option (List Byte)) : State :=
  match bytes with
  | none => turnedAway s p 2 10 (BitVec.ofNat 64 (s.openAt 3 (2 ^ 64)))
  | some b =>
    let d := decodeDesc b
    if d.withdraw ≠ 0 then turnedAway s p 3 0 d.hostTag
    else
      let c := refusal s p d
      if c ≠ 0 then turnedAway s p 2 c d.hostTag else admitDesc s p d

/-- The job of a partition waits for its step's request list. -/
def awaitsList (s : State) (p : Nat) : Bool := match s.job p with
  | some j => j.inStep && !j.listFixed && !j.replaying
  | none => false

/-- The window is not that of a boundary that a stretched step skips, or at which one restarts: nothing commits there, and nothing is
taken into the job (R91, R95). -/
def windowOpen (s : State) (p : Nat) : Bool := match s.job p with
  | some j => !(j.inStep && j.listFixed && !j.replaying && !j.inserting)
  | none => false

/-- The completion queue of a partition has room (R223). -/
def cqOpen (s : State) (p : Nat) : Bool := decide ((s.part p).cqQueue.length < cqQueueMax)

/-- The partition takes descriptors at this window: a job is loaded, and strokes do not run free (R213, R223, R331, R336, R342, R344). -/
def takes (s : State) (p : Nat) : Bool :=
  let x := s.part p
  windowOpen s p && s.stroke.state != .freeRun && hostOpen x && !x.intakeHold && cqOpen s p
  && (match x.plan with
    | some pl => pl.entry
    | none => false)
  && (match x.job with
    | some j => !j.unloading
    | none => false)

/-! ### Allotments (R336) -/

/-- Descriptors pending: 0 where the head index could not be read, or lies beyond the ring. -/
def pendingOf (s : State) (r : IntakeRead) : Nat :=
  match r.head with
  | none => 0
  | some h =>
    let n := (h + 2 ^ 32 - (s.part r.part).tail) % 2 ^ 32
    if ringLen s r.part < n then 0 else n

def intakeWeight (s : State) (p : Nat) : Nat := ((s.part p).cfg.share1.extractLsb' 0 8).toNat

/-- First allotments in ascending partition order, until their total reaches 2,048. -/
def firstAllot (s : State) (w : Nat → Nat) (total : Nat) : Nat → List (Nat × Nat) → List (Nat × Nat × Nat)
  | _, [] => []
  | used, (p, n) :: rest =>
    let a := min (min (max 1 (2048 * w p / max 1 total)) (min (intakeMax s p) n)) (2048 - used)
    (p, n, a) :: firstAllot s w total (used + a) rest

/-- What is left goes to the remaining partitions in ascending order. -/
def moreAllot (s : State) : Nat → List (Nat × Nat × Nat) → List (Nat × Nat)
  | _, [] => []
  | left, (p, n, a) :: rest =>
    let more := min left (min (intakeMax s p) n - a)
    (p, a + more) :: moreAllot s (left - more) rest

/-- The allotments of a window: partition and descriptors. -/
def allotments (s : State) (pend : List (Nat × Nat)) : List (Nat × Nat) :=
  let ps := pend.filter (fun (p, n) => takes s p && n != 0)
  let sum := (ps.map (fun (p, _) => intakeWeight s p)).sum
  let w := fun p => if sum = 0 then 1 else intakeWeight s p
  let fs := firstAllot s w (if sum = 0 then ps.length else sum) 0 ps
  moreAllot s (2048 - (fs.map (fun (_, _, a) => a)).sum) fs

/-! ### The window of a partition -/

/-- Descriptors in ring order, as long as the completion queue has room (R223); answers how many were consumed. -/
def takeDescs (p : Nat) (s : State) : List (Option (List Byte)) → State × Nat
  | [] => (s, 0)
  | d :: ds =>
    if cqOpen s p then
      let r := takeDescs p (takeDescriptor p s d) ds
      (r.1, r.2 + 1)
    else (s, 0)

/-- After `n` descriptors: the tail, its copy in host memory, INTAKE_DONE (R213). -/
def moveTail (s : State) (p n : Nat) : State :=
  let tail := ((s.part p).tail + n) % 2 ^ 32
  let s1 := s.updPart p (fun x => { x with tail := tail })
  let s2 := hostWrite s1 (addrPair s1 (pgReq p) 0x054) (leBytes 4 tail)
  if n = 0 then s2 else raise s2 (pgReq p) 0

/-- The ring of a partition: RING_ERR, descriptors in order, tail copy, INTAKE_DONE (R213). -/
def takeRing (s : State) (r : IntakeRead) (n : Nat) : State :=
  let p := r.part
  if !takes s p || r.head.isNone then s
  else if (match r.head with
      | some h => decide (ringLen s p < (h + 2 ^ 32 - (s.part p).tail) % 2 ^ 32)
      | none => false) then raise s (pgReq p) 2
  else
    let t := takeDescs p s (r.descs.take n)
    moveTail t.1 p t.2

/-! ### Scroll credit (R221) -/

def scrollCredit (x : Slot) : Int := (x.desc.scrollLen : Int) - ((x.nextSeq : Int) - (x.consumed : Int))
def generating (x : Slot) : Bool := x.state != .free && x.state != .building

/-- The consumed counter of one request, as read: none is a DMA error. -/
def readConsumed (p : Nat) (s : State) (r : Nat × Option Nat) : State :=
  let x := s.slot r.1
  if !(ownSlot (s.part p) r.1 && generating x && decide (scrollCredit x < 64) && x.cancel.isNone) then s
  else
    match r.2 with
    | none => endDmaError s p r.1
    | some v0 =>
      let v := x.base + v0
      if v < x.consumed ∨ x.nextSeq < v then s.updPart p (fun y => { y with badCons := sat 16 (y.badCons + 1) })
      else s.setSlot r.1 { x with consumed := v }

/-- Requests whose credit is below 17 stall, once each (R221). -/
def stallOne (s : State) (n : Nat) : State :=
  let x := s.slot n
  let st := generating x && decide (scrollCredit x < 17)
  let s1 := s.setSlot n { x with stalled := st }
  if st && !x.stalled then raise s1 (pgReq x.part) 3 else s1

/-! ### Choosing the list (R217, R218) -/

/-- What a request would do in the step: its slot, class, whether it processes a prompt, first position, positions. -/
structure Wish where
  slot  : Nat
  cls   : Nat
  fill  : Bool
  first : Nat
  count : Nat
  deriving DecidableEq, Repr

/-- The state in which a resumed request goes on. -/
def nextState (x : Slot) : SlotState := if x.state = .resuming then x.before else x.state

/-- First position of a DECODE step. While no record is committed the manual gives none: the last prompt position or the one
after it (log entry 42). -/
def decodePos (s : State) (n : Nat) (x : Slot) : Nat :=
  x.prefixLen + x.desc.promptLen + x.nextSeq - 1 + (if x.nextSeq = 0 then s.openAt n 2 else 0)

/-- A request that is eligible but for its pages (R217). Positions end at MAXPOS - 1. -/
def wishOf (s : State) (p n : Nat) : Option Wish :=
  let x := s.slot n
  let st := nextState x
  let resumed := decide (x.resumeCtrl ≠ 0) || x.resumedNew
  let cut := fun first count => min count (maxPosOf s p - first)
  let ok := !x.frozen && !(generating x && decide (scrollCredit x < 17)) && (x.state != .resuming || x.pagesReady)
  if !ok then none
  else
    match st with
    | .digesting => some ⟨n, 0, false, decodePos s n x, cut (decodePos s n x) 1⟩
    | .decode => some ⟨n, 1, false, decodePos s n x, cut (decodePos s n x) (if speculative x.desc then 1 + x.desc.specLen else 1)⟩
    | .prefill | .building =>
      let first := x.prefixLen + x.promptDone
      some ⟨n, if resumed then 1 else 2, true, first, min (x.desc.promptLen - x.promptDone) (chunkMax s p)⟩
    | _ => none

/-- The order of R218: class, higher priority, longer time since listed, lower slot. -/
def before (s : State) (a b : Wish) : Bool :=
  let x := s.slot a.slot
  let y := s.slot b.slot
  if a.cls ≠ b.cls then decide (a.cls < b.cls)
  else if x.priority ≠ y.priority then decide (y.priority < x.priority)
  else if x.lastListed ≠ y.lastListed then decide (x.lastListed < y.lastListed)
  else decide (a.slot < b.slot)

def insertWish (s : State) (a : Wish) : List Wish → List Wish
  | [] => [a]
  | b :: bs => if before s a b then a :: b :: bs else b :: insertWish s a bs

/-- A RESUMING request that is eligible goes back to its state before the pause; RESUMED is written (R228). -/
def noteResumed (s : State) (p n : Nat) : State :=
  let x := s.slot n
  if x.state = .resuming ∨ x.resumedOwed then
    let y : Slot := { x with
      state := nextState x, resumedOwed := false, pagesReady := false, pagesHeld := false, resumedFlag := true }
    complete (s.setSlot n y) p false (slotEntry s n 7 0 x.desc.hostTag s.stroke.number)
  else s

/-- What the selection has done so far: chosen requests with the positions they receive, positions used, requests left out. -/
structure Choice where
  st    : State
  taken : List Wish
  used  : Nat
  left  : Nat

/-- One request in the order of precedence: its pages, RESUMED, and its place in the list (R217, R218). -/
def chooseOne (p : Nat) (c : Choice) (w : Wish) : Choice :=
  match takePages c.st p w.slot w.first w.count with
  | none => { c with left := c.left + 1 }
  | some s1 =>
    let s2 := noteResumed s1 p w.slot
    let room := posMax s2 p - c.used
    let n := if w.fill then min w.count room else w.count
    if listMax s2 p ≤ c.taken.length ∨ room < n ∨ n = 0 then { c with st := s2, left := c.left + 1 }
    else { c with st := s2, taken := c.taken ++ [{ w with count := n }], used := c.used + n }

def insertBySlot (a : Wish) : List Wish → List Wish
  | [] => [a]
  | b :: bs => if a.slot ≤ b.slot then a :: b :: bs else b :: insertBySlot a bs

/-! ### The serving area (R216) -/

def ctrlOf (x : Slot) : Nat :=
  match x.state with
  | .digesting => 1
  | .building => 4
  | _ => x.resumeCtrl

/-- An entry of the request list (R201). -/
def listEntry (s : State) (w : Wish) : ListEntry :=
  let x := s.slot w.slot
  { slot := w.slot, prefill := w.fill, speculative := speculative x.desc, resumed := decide (x.resumeCtrl ≠ 0) || x.resumedNew,
    ctrl := ctrlOf x, positions := w.count, position := w.first,
    adapter := if namesAdapter x.desc then some x.desc.adapter else none, priority := x.priority, delivered := x.nextSeq,
    seed := x.desc.seed }

/-- The parameter entry of a slot. -/
def paramBytes (x : Slot) (ctrl : Nat) : List Byte :=
  leBytes 4 ctrl ++ leBytes 4 x.prefixLen ++ leBytes 4 x.desc.promptLen ++ leBytes 4 x.desc.maxTokens
  ++ List.replicate 0x70 0#8 ++ x.desc.params

/-- A token that the manual leaves open: draft positions of a speculative step, and steps before the first record. -/
def openToken (s : State) (k : Nat) : Nat := s.openAt k (2 ^ 32)

/-- The input tokens of an entry: the prompt's, as read, or the last committed token and draft positions. -/
def inputTokens (s : State) (w : Wish) (prompt : Option (List (BitVec 32))) : List Nat :=
  let x := s.slot w.slot
  (List.range w.count).map (fun k =>
    if w.fill then (match prompt with
      | some ts => (match ts[k]? with
          | some t => t.toNat
          | none => openToken s k)
      | none => openToken s k)
    else if k = 0 ∧ x.nextSeq ≠ 0 then x.lastToken else openToken s k)

/-- Writes the serving area of an entry, and remembers that it was listed. -/
def listOne (p : Nat) (prompts : List (Nat × Option (List (BitVec 32)))) (s : State) (w : Wish) : State :=
  let x := s.slot w.slot
  let i := w.slot - (s.part p).cfg.sbase
  let prompt := (prompts.find? (fun q => q.1 == w.slot)).bind (·.2)
  let ts := inputTokens s w prompt
  let s1 := scratchWrite s p ((s.reg (pgReq p) 0x094).toNat * 4096 + 256 * i) (paramBytes x (ctrlOf x))
  let s2 := scratchWrite s1 p ((s.reg (pgReq p) 0x098).toNat * 4096 + 16384 * i) (ts.flatMap (leBytes 4))
  let y : Slot := { x with lastListed := s.stroke.number, resumeCtrl := 0, resumedNew := false }
  { s2.setSlot w.slot y with freeCtr := s2.freeCtr + w.count }

/-- Scribes of the job begin the step (R130): those that wait run from index 0; a halted one stays halted (R184). -/
def startScribes (s : State) (p : Nat) : State :=
  match (s.part p).plan with
  | none => s
  | some pl => pl.lcores.foldl (fun t l =>
      let x := t.scribe l
      if x.mode = .idle then t.setScribe l { x with mode := .running } else t) s

/-- A request whose prompt could not be read ends (R212, R240). -/
def promptFailed (prompts : List (Nat × Option (List (BitVec 32)))) (n : Nat) : Bool :=
  prompts.any (fun q => q.1 == n && q.2.isNone)

/-- Fixes the request list of a step (R201, R217, R218). -/
def fixList (s : State) (p : Nat) (prompts : List (Nat × Option (List (BitVec 32)))) : State :=
  let bad := (slotsOf s p).filter (fun n =>
    promptFailed prompts n && (s.slot n).cancel.isNone && (match wishOf s p n with
      | some w => w.fill
      | none => false))
  let s1 := bad.foldl (fun t n => endDmaError t p n) s
  let ns := slotsOf s1 p
  let s2 := ns.foldl stallOne s1
  let ws := ((ns.filterMap (wishOf s2 p)).filter (fun w => w.count != 0)).foldl (fun acc w => insertWish s2 w acc) []
  let waits := (ns.filter (fun n => (s2.slot n).state == .resuming && !(s2.slot n).pagesReady)).length
  let c := ws.foldl (chooseOne p) { st := { s2 with freeCtr := s2.freeCtr + numSlots }, taken := [], used := 0, left := waits }
  let ls := c.taken.foldl (fun acc w => insertBySlot w acc) []
  let entries := ls.map (listEntry c.st)
  let s3 := ls.foldl (listOne p prompts) c.st
  let stalled := (ns.filter (fun n => (s3.slot n).stalled)).length
  let s4 := s3.updPart p (fun x => { x with waitStalled := sat 17 stalled, waitUnlisted := sat 15 c.left })
  let s5 := s4.updJob p (fun j => { j with reqList := entries, listFixed := true, ordersDue := false })
  startScribes s5 p

/-- Requests held suspect: their orders wait (R260). -/
def heldSlots (j : Job) : List Nat := match j.hold with
  | some h => h.slots
  | none => []

/-- The orders due at this window: the boundary before it has committed a step of the job (R225). -/
def ordersAt (s : State) (p : Nat) (j : Job) : State :=
  if j.ordersDue then
    (applyOrders s p (if awaitsList s p then j.openStroke else s.stroke.number) false (heldSlots j)).updJob p (fun k => { k with ordersDue := false })
  else s

/-- The window of one partition after its ring: the orders due, pages for RESUMING requests, the consumed counters, and the list where
the job begins a step (R213, R221). -/
def closeIntake (s : State) (r : IntakeRead) : State :=
  let p := r.part
  match s.job p with
  | none => s
  | some j =>
    if notEntry s p then s
    else
      let s1 := ordersAt s p j
      let s2 := if windowOpen s p then (slotsOf s1 p).foldl (resumePages p) s1 else s1
      let s3 := if hostOpen (s2.part p) then r.consumed.foldl (readConsumed p) s2 else s2
      if awaitsList s p then fixList s3 p r.prompts else (slotsOf s3 p).foldl stallOne s3

/-- What was read of a partition; nothing for one that the command does not name. -/
def readOf (reads : List IntakeRead) (p : Nat) : IntakeRead :=
  (reads.find? (fun r => r.part == p)).getD { part := p, head := none, descs := [], consumed := [], prompts := [] }

/-- INTAKE (R213): every partition with a loaded job. -/
def execIntake (reads : List IntakeRead) (s : State) : Host.Outcome State Fault Refusal :=
  let rs := ((List.range numParts).filter (fun p => (s.job p).isSome)).map (readOf reads)
  let al := allotments s (rs.map (fun r => (r.part, pendingOf s r)))
  let n := fun p => match al.find? (fun a => a.1 == p) with
    | some a => a.2
    | none => 0
  let s1 := rs.foldl (fun t r => takeRing t r (n r.part)) s
  let s2 := rs.foldl closeIntake s1
  .next (raiseLows s s2)

/-- REQUEST_DESCRIPTOR (R213, R215): the device takes the next descriptor of a ring. -/
def execRequestDescriptor (part : Nat) (desc : Option (List Byte)) (s : State) : Host.Outcome State Fault Refusal :=
  if takes s part then
    .next (raiseLows s (moveTail (takeDescriptor part s desc) part 1))
  else .next s

end Sys2Proof.Machine
end

