-- ==== Sys2Proof/Machine/LinkFrames.lean ====
section
/-! DEFINITION. Avgon frames: link blocks and their trailers (R300), packets and their headers (R302), virtual channels and credits
(R303), the routes of packets over the torus (R305, R306, R310, R311), and transit over the link spine (R304). -/

namespace Sys2Proof.Machine

/-! ### Coordinates (R302, R306, R309) -/

/-- Coordinates: X in [7:0], Y in [9:8], Z in [12:10] (R302). -/
def coordX (c : Nat) : Nat := c % 256
def coordY (c : Nat) : Nat := c / 256 % 4
def coordZ (c : Nat) : Nat := c / 1024 % 8
def coordOf (x y z : Nat) : Nat := x + 256 * y + 1024 * z

/-- Extents of a partition's block. -/
def blockX (s : State) (p : Nat) : Nat := ((s.jobReg p 0x124).extractLsb' 16 8).toNat + 1
def blockY (s : State) (p : Nat) : Nat := ((s.jobReg p 0x124).extractLsb' 24 2).toNat + 1
def blockZ (s : State) (p : Nat) : Nat := ((s.jobReg p 0x124).extractLsb' 26 3).toNat + 1
def blockOrigin (s : State) (p : Nat) : Nat := ((s.jobReg p 0x124).extractLsb' 0 13).toNat
/-- The machine's size along X: 4 k (R306). -/
def sizeX (s : State) : Nat := 4 * max 1 s.link.racks

/-- Along an axis (0 X, 1 Y, 2 Z): a coordinate's part, the machine's size, and the extent of a partition's block. -/
def axisPart (axis c : Nat) : Nat := match axis with
  | 0 => coordX c
  | 1 => coordY c
  | _ => coordZ c
def axisSize (s : State) (axis : Nat) : Nat := match axis with
  | 0 => sizeX s
  | 1 => 4
  | _ => 8
def axisExtent (s : State) (p axis : Nat) : Nat := match axis with
  | 0 => blockX s p
  | 1 => blockY s p
  | _ => blockZ s p

/-! ### Directions and ports (R305, R311) -/

/-- Direction of a port under a profile (0 EVEN, 1 XHEAVY, 2 RING, 3 PAIR), as `DIR` codes it: 0 -X, 1 +X, 2 -Y, 3 +Y, 4 -Z, 5 +Z,
6 buddy. -/
def portDir (profile n : Nat) : Nat :=
  match profile with
  | 1 => [0, 0, 0, 2, 2, 3, 3, 4, 1, 1, 1, 5].getD n 7
  | 2 => [0, 0, 0, 0, 4, 5, 4, 5, 1, 1, 1, 1].getD n 7
  | 3 => [0, 0, 2, 2, 4, 5, 6, 6, 1, 1, 3, 3].getD n 7
  | _ => [0, 0, 2, 2, 4, 5, 4, 5, 1, 1, 3, 3].getD n 7

/-- The direction that faces a direction; a buddy port faces a buddy port. -/
def oppositeDir (d : Nat) : Nat := if d < 6 then (if d % 2 = 0 then d + 1 else d - 1) else d

/-- The coordinate one step from `c` in direction `d`, modulo the axis sizes (R306). -/
def stepCoord (s : State) (c d : Nat) : Nat :=
  let mx := sizeX s
  match d with
  | 0 => coordOf ((coordX c + mx - 1) % mx) (coordY c) (coordZ c)
  | 1 => coordOf ((coordX c + 1) % mx) (coordY c) (coordZ c)
  | 2 => coordOf (coordX c) ((coordY c + 3) % 4) (coordZ c)
  | 3 => coordOf (coordX c) ((coordY c + 1) % 4) (coordZ c)
  | 4 => coordOf (coordX c) (coordY c) ((coordZ c + 7) % 8)
  | 5 => coordOf (coordX c) (coordY c) ((coordZ c + 1) % 8)
  | _ => c

/-- Numbers of the ports of a direction. -/
def portsOf (s : State) (d : Nat) : List Nat := (List.range 12).filter (fun n => (s.port n).dir == d)

/-- A port carries traffic towards its neighbour: UP, and the neighbour not lost (R311). -/
def portServes (s : State) (n : Nat) : Bool := (s.port n).state == .up && !s.link.lostDevices.contains (s.port n).peer

/-- Every port of a direction has failed. -/
def dirFailed (s : State) (d : Nat) : Bool := !(portsOf s d).isEmpty && (portsOf s d).all (fun n => !portServes s n)

/-- The detour around a failed direction: the first of +Y, +Z, -Y, -Z, +X, -X that is neither it nor its opposite and is up. -/
def detourDir (s : State) (d : Nat) : Option Nat :=
  [3, 5, 2, 4, 1, 0].find? (fun e => e != d && e != oppositeDir d && !(portsOf s e).isEmpty && !dirFailed s e)

/-! ### Packets (R302) -/

/-- A little-endian field of a header slot: `n` bytes from byte `off`. -/
def slotField (b : BitVec 512) (off n : Nat) : Nat := (b.extractLsb' (8 * off) (8 * n)).toNat

def hdrType (b : BitVec 512) : Nat := slotField b 0x00 1
def hdrHops (b : BitVec 512) : Nat := slotField b 0x01 1
def hdrDetoured (b : BitVec 512) : Bool := b.getLsbD 16
def hdrUpper (b : BitVec 512) : Bool := b.getLsbD 17
def hdrNdata (b : BitVec 512) : Nat := slotField b 0x03 1
def hdrDst (b : BitVec 512) : Nat := slotField b 0x04 2
def hdrSrc (b : BitVec 512) : Nat := slotField b 0x06 2
def hdrJob (b : BitVec 512) : Nat := slotField b 0x08 4
def hdrDstCore (b : BitVec 512) : Nat := slotField b 0x0C 2
def hdrSrcCore (b : BitVec 512) : Nat := slotField b 0x0E 2
def hdrTag (b : BitVec 512) : Nat := slotField b 0x10 2
def hdrStepTag (b : BitVec 512) : Nat := (b.extractLsb' 0x90 2).toNat
def hdrOffset (b : BitVec 512) : Nat := slotField b 0x14 4
def hdrStroke (b : BitVec 512) : Nat := slotField b 0x18 4
def hdrPcrc (b : BitVec 512) : W32 := b.extractLsb' 0xE0 32
def hdrBody (b : BitVec 512) : BitVec 256 := b.extractLsb' 0x100 256

/-- The 64 bytes of a slot. -/
def slotBytes (b : BitVec 512) : List Byte := leBytes 64 b.toNat

/-- A slot of 64 bytes. -/
def bytesSlot (bs : List Byte) : BitVec 512 := BitVec.ofNat 512 (leNat (bs.take 64))

/-- PCRC of a packet over its data slots. -/
def dataCrc (data : List (BitVec 512)) : W32 := crc32c (data.flatMap slotBytes)

/-- The PCRC of a packet holds. -/
def pcrcOk (h : BitVec 512) (data : List (BitVec 512)) : Bool := hdrPcrc h == dataCrc data

/-- A header slot as its sender writes it, before its first hop. -/
def makeHeader (typ ndata dst src job dstCore srcCore tag stepNo off stroke : Nat) (pcrc : W32) (body : BitVec 256) : BitVec 512 :=
  bytesSlot (leBytes 1 typ ++ leBytes 1 0 ++ leBytes 1 0 ++ leBytes 1 ndata ++ leBytes 2 dst ++ leBytes 2 src ++ leBytes 4 job
    ++ leBytes 2 dstCore ++ leBytes 2 srcCore ++ leBytes 2 tag ++ leBytes 1 (stepNo % 4) ++ leBytes 1 0 ++ leBytes 4 off
    ++ leBytes 4 stroke ++ leBytes 4 pcrc.toNat ++ leBytes 32 body.toNat)

/-- A header after a hop: HOPS and FLAGS. -/
def withHop (h : BitVec 512) (hops : Nat) (detoured upper : Bool) : BitVec 512 :=
  (h &&& ~~~(BitVec.ofNat 512 0xFFFF00)) ||| BitVec.ofNat 512 (256 * (hops % 256) + 65536 * detoured.toNat + 131072 * upper.toNat)

/-- The virtual channel of a packet type and class (R303); 7 for a reserved type. -/
def vcOf (typ : Nat) (upper : Bool) : Nat :=
  if [4, 5, 6, 7, 10, 11].contains typ then 0
  else if typ = 1 ∨ typ = 2 then 1 + upper.toNat
  else if typ = 3 then 3 + upper.toNat
  else if typ = 8 ∨ typ = 9 then 5
  else 7

/-- The packet at the head of a channel's slots, with what follows it, once all its slots are there. Data slots without a header are
passed over (DESIGN CHOICE, log entry 105). -/
def headPacket (q : List LinkSlot) : Option (BitVec 512 × List (BitVec 512) × List LinkSlot) :=
  match q.dropWhile (fun x => !x.header) with
  | [] => none
  | h :: rest =>
    let n := hdrNdata h.bits
    if rest.length < n then none else some (h.bits, (rest.take n).map (·.bits), rest.drop n)

/-- The slots of a packet on a channel. -/
def packetSlots (vc : Nat) (h : BitVec 512) (data : List (BitVec 512)) : List LinkSlot :=
  ⟨vc, true, h⟩ :: data.map (fun b => ⟨vc, false, b⟩)

/-- All the packets that stand whole in a channel's slots. -/
def wholePackets : Nat → List LinkSlot → List (BitVec 512 × List (BitVec 512))
  | 0, _ => []
  | n + 1, q => match headPacket q with
    | none => []
    | some (h, data, rest) => (h, data) :: wholePackets n rest

/-! ### Blocks (R300, R301, R303) -/

/-- Slots of a received block that are not empty, in order. VC 6 is reserved: a slot on it is passed over (log entry 105). -/
def blockSlots (bs : List Byte) : List LinkSlot :=
  let map := leNat ((bs.drop 1024).take 8)
  (List.range 16).filterMap (fun i =>
    let e := map / 2 ^ (4 * i) % 16
    if 6 ≤ e % 8 then none else some ⟨e % 8, decide (8 ≤ e), bytesSlot ((bs.drop (64 * i)).take 64)⟩)

/-- The CONTROL word of a block. -/
def blockControl (bs : List Byte) : W32 := BitVec.ofNat 32 (leNat ((bs.drop 1032).take 4))

def blockSeq (bs : List Byte) : Nat := ((blockControl bs).extractLsb' 0 12).toNat
def blockAck (bs : List Byte) : Nat := ((blockControl bs).extractLsb' 12 12).toNat
def blockNak (bs : List Byte) : Bool := (blockControl bs).getLsbD 24
def blockCreditVc (bs : List Byte) : Nat := ((blockControl bs).extractLsb' 25 3).toNat
/-- Credits returned, in slots. -/
def blockCredits (bs : List Byte) : Nat := 4 * ((blockControl bs).extractLsb' 28 4).toNat

/-- The CRC of a block: over its slots, SLOTMAP and CONTROL. -/
def blockCrcOk (bs : List Byte) : Bool := (crc32c (bs.take 1036)).toNat == leNat ((bs.drop 1036).take 4)

/-- A block as the port sends it: its slots, then the trailer. -/
def blockImage (b : SentBlock) : List Byte :=
  let slots := (List.range 16).flatMap (fun i => match b.slots[i]? with
    | some x => slotBytes x.bits
    | none => List.replicate 64 0#8)
  let map := ((List.range 16).map (fun i => (match b.slots[i]? with
    | some x => x.vc + 8 * x.header.toNat
    | none => 7) * 2 ^ (4 * i))).sum
  let control := b.seq + 2 ^ 12 * b.ack + 2 ^ 24 * b.nak.toNat + 2 ^ 25 * b.creditVc + 2 ^ 28 * b.credits
  let body := slots ++ leBytes 8 map ++ leBytes 4 control
  body ++ leBytes 4 (crc32c body).toNat

/-- Credits that a port has when it comes up, in slots: VC 0 has its 8 reserved slots; the manual names no other number
(log entry 105). -/
def firstCredits (vc : Nat) : Nat := if vc = 0 then 8 else 4 * (1 + Config.linkCredits vc)

/-- The order in which the channels fill the free slots of a block: VC 0 first (R303); the order of the others is the model's
(DESIGN CHOICE, log entry 105). -/
def vcOrder : List Nat := [0, 3, 4, 1, 2, 5]

/-- Slots that the next block takes from each channel: in order, within the channel's credits, 16 in all. -/
def pickSlots (x : Port) : Nat → List Nat → List LinkSlot
  | _, [] => []
  | room, vc :: rest =>
    let take := (Tbl.getD x.tx vc []).take (min room (Tbl.getD x.credits vc 0))
    take ++ pickSlots x (room - take.length) rest

/-- The channel whose credits the next block returns: the first with 4 slots to give back. -/
def creditFor (x : Port) : Nat := ([0, 1, 2, 3, 4, 5].find? (fun vc => decide (4 ≤ Tbl.getD x.owed vc 0))).getD 0

/-- The port sends its next block (R300): slots within their credits, the ACK of what it has received intact, a NAK while one is due, and
credits; the replay buffer keeps the last 64 blocks (R301). -/
def sendBlock (x : Port) : Port :=
  let slots := pickSlots x 16 vcOrder
  let used (vc : Nat) : Nat := (slots.filter (fun y => y.vc == vc)).length
  let cv := creditFor x
  let back := min 15 (Tbl.getD x.owed cv 0 / 4)
  let b : SentBlock := { seq := (x.txSeq + 1) % 4096, ack := x.rxSeq, nak := x.nakPend, creditVc := cv, credits := back, slots := slots }
  let all := x.sent ++ [b]
  { x with
    txSeq := b.seq
    tx := vcOrder.foldl (fun m vc => if used vc = 0 then m else Tbl.set m vc ((Tbl.getD m vc []).drop (used vc))) x.tx
    credits := vcOrder.foldl (fun m vc => if used vc = 0 then m else Tbl.set m vc (Tbl.getD m vc 0 - used vc)) x.credits
    owed := if back = 0 then x.owed else Tbl.set x.owed cv (Tbl.getD x.owed cv 0 - 4 * back)
    sent := all.drop (all.length - 64) }

/-- The slots of a good block go to the buffers of their channels, and the credits that it returns to the port. -/
def acceptBlock (x : Port) (bs : List Byte) : Port :=
  let cv := blockCreditVc bs
  { x with
    rx := (blockSlots bs).foldl (fun m y => Tbl.set m y.vc (Tbl.getD m y.vc [] ++ [y])) x.rx
    credits := if blockCredits bs = 0 ∨ 6 ≤ cv then x.credits
      else Tbl.set x.credits cv (Tbl.getD x.credits cv 0 + blockCredits bs) }

/-- A port that comes UP: empty buffers for new blocks, packets that have arrived whole still to be taken. -/
def freshChannels (x : Port) (rxSeq ackSeq : Nat) : Port :=
  { x with
    rxSeq := rxSeq, ackSeq := ackSeq, txSeq := ackSeq, replays := 0, nakPend := false, owed := [], sent := []
    rx := Tbl.mapVal (fun vc q => (wholePackets q.length q).flatMap (fun (h, data) => packetSlots vc h data)) x.rx
    credits := [0, 1, 2, 3, 4, 5].map (fun vc => (vc, firstCredits vc)) }

/-! ### Routes (R310, R311) -/

/-- A partition whose loaded plan belongs to a job. -/
def planOfJob (s : State) (job : Nat) : Option Nat :=
  (s.parts.find? (fun (_, x) => match x.plan with
    | some pl => pl.jobId == job
    | none => false)).map (·.1)

/-- Whether the ring of an axis closes for the packets of a job: where its block wraps (R309, R310). For a job that this device has not
loaded, and for packets of no job, the whole machine counts as the block (DESIGN CHOICE, log entry 105). X is open while growth is armed
(R308). -/
def axisWraps (s : State) (p : Option Nat) (axis : Nat) : Bool :=
  !(axis == 0 && s.link.growArm) && (match p with
    | some p => axisExtent s p axis == axisSize s axis
    | none => true)

/-- The direction of a packet along an axis, from `c` to `dst`, if they differ there: on a ring that closes the shorter way and the positive
one of two equal ones, otherwise the way that stays inside the block (R310). -/
def axisDir (s : State) (p : Option Nat) (axis c dst : Nat) : Option Nat :=
  let m := axisSize s axis
  let up := (axisPart axis dst + m - axisPart axis c % m) % m
  if axisPart axis c = axisPart axis dst ∨ up = 0 then none
  else if axisWraps s p axis then some (if up ≤ m - up then 2 * axis + 1 else 2 * axis)
  else
    let o := match p with
      | some p => if axis = 0 ∧ s.link.growArm = true then 0 else axisPart axis (blockOrigin s p)
      | none => 0
    let off (x : Nat) : Nat := (axisPart axis x + m - o % m) % m
    some (if off c < off dst then 2 * axis + 1 else 2 * axis)

/-- The direction of a packet: X, then Y, then Z (R310). A detoured packet does not go back by the way `back` that it came, so that the
failed step follows the first hop of a detour (R311; DEDUCED, log entry 105). -/
def packetDir (s : State) (p : Option Nat) (c dst : Nat) (back : Option Nat) : Option Nat :=
  let ds := [0, 1, 2].filterMap (fun axis => axisDir s p axis c dst)
  match ds.find? (fun d => some d != back) with
  | some d => some d
  | none => ds.head?

/-- A step in direction `d` from `c` crosses the dateline of its axis: the link between 0 and the largest coordinate (R303). -/
def crossesDateline (s : State) (c d : Nat) : Bool :=
  let x := axisPart (d / 2) c
  if d % 2 = 1 then x + 1 == axisSize s (d / 2) else x == 0

/-- The port of a direction that a packet takes: the hash over the ports that serve (R310, R311). -/
def hashPort (ports : List Nat) (h : BitVec 512) : Option Nat :=
  if ports.isEmpty then none
  else ports[Config.portHash (hdrSrcCore h) (hdrDstCore h) (hdrTag h) % ports.length]?

/-- The port and the flags with which a packet leaves: in its direction, or by a detour where that has failed. `inDir` is the direction of
travel in which it came. Where nothing is up it waits at a port of its direction. Mirror traffic leaves by a buddy port (R303). -/
def packetExit (s : State) (h : BitVec 512) (inDir : Option Nat) : Option (Nat × Bool × Bool) :=
  let live (d : Nat) : List Nat := (portsOf s d).filter (portServes s)
  if vcOf (hdrType h) false = 5 then (hashPort (live 6) h <|> hashPort (portsOf s 6) h).map (fun n => (n, hdrDetoured h, hdrUpper h))
  else
    let c := s.link.coord
    let back := if hdrDetoured h then inDir.map oppositeDir else none
    match packetDir s (planOfJob s (hdrJob h)) c (hdrDst h) back with
    | none => none
    | some d =>
      let turns := match inDir with
        | some i => i / 2 != d / 2
        | none => true
      let upper := (if turns && !hdrDetoured h then false else hdrUpper h)
      match hashPort (live d) h with
      | some n => some (n, hdrDetoured h, upper || crossesDateline s c d)
      | none => match detourDir s d with
        | some e => (hashPort (live e) h).map (fun n => (n, true, true))
        | none => (hashPort (portsOf s d) h).map (fun n => (n, hdrDetoured h, upper || crossesDateline s c d))

/-- A packet's slots wait at port `n` for credits, with the hop counted in its header (R302, R303). -/
def sendOn (s : State) (n : Nat) (detoured upper : Bool) (h : BitVec 512) (data : List (BitVec 512)) : State :=
  let h1 := withHop h (hdrHops h + 1) detoured upper
  let vc := vcOf (hdrType h1) upper
  if 6 ≤ vc then s
  else
    let x := s.port n
    s.setPort n { x with tx := Tbl.set x.tx vc (Tbl.getD x.tx vc [] ++ packetSlots vc h1 data) }

/-- A packet leaves the device (R303, R304). One that names no way, to this device itself or over buddy ports that it has not, goes
nowhere. -/
def sendPacket (s : State) (inDir : Option Nat) (h : BitVec 512) (data : List (BitVec 512)) : State :=
  match packetExit s h inDir with
  | none => s
  | some (n, det, upper) => sendOn s n det upper h data

/-- Whether the peer has not acknowledged a block. -/
def unacked (x : Port) (b : SentBlock) : Bool :=
  let n := (b.seq + 4096 - x.ackSeq % 4096) % 4096
  decide (0 < n) && decide (n < 2048)

/-- Packets of a channel, with whether any slot of them has not been acknowledged. -/
def openPackets : Nat → List (Bool × LinkSlot) → List (BitVec 512 × List (BitVec 512))
  | 0, _ => []
  | n + 1, q => match q.dropWhile (fun x => !x.2.header) with
    | [] => []
    | h :: rest =>
      let k := hdrNdata h.2.bits
      let data := rest.take k
      let tail := openPackets n (rest.drop k)
      if h.1 || data.any (·.1) then (h.2.bits, data.map (·.2.bits)) :: tail else tail

/-- What a failed port has not delivered: packets with a slot in an unacknowledged block of the replay buffer, or that still wait. -/
def undelivered (x : Port) : List (BitVec 512 × List (BitVec 512)) :=
  vcOrder.flatMap (fun vc =>
    let q := x.sent.flatMap (fun b => (b.slots.filter (fun y => y.vc == vc)).map (fun y => (unacked x b, y)))
      ++ (Tbl.getD x.tx vc []).map (fun y => (true, y))
    openPackets q.length q)

/-- What waits at ports that do not serve is sent by the new routes, so that a port failure alone loses nothing (R311). -/
def rerouteWaiting (s : State) : State :=
  let dead := (List.range 12).filter (fun n => !portServes s n && (!(s.port n).tx.isEmpty || !(s.port n).sent.isEmpty))
  let ps := dead.flatMap (fun n => (undelivered (s.port n)).map (fun y => ((s.port n).dir, y)))
  let s1 := dead.foldl (fun t n => t.setPort n { t.port n with tx := [], sent := [] }) s
  ps.foldl (fun t (d, h, data) =>
    sendPacket t (some d) (withHop h (hdrHops h - 1) (hdrDetoured h) (hdrUpper h)) data) s1

/-! ### Packets that this device sends (R302) -/

/-- A packet from this device; data go in slots of 64 bytes. -/
def postPacket (s : State) (typ dst job dstCore srcCore tag stepNo off : Nat) (data : List Byte) (body : BitVec 256) : State :=
  let slots := (List.range ((data.length + 63) / 64)).map (fun i => bytesSlot ((data.drop (64 * i)).take 64))
  sendPacket s none (makeHeader typ slots.length dst s.link.coord job dstCore srcCore tag stepNo off (s.stroke.number % 2 ^ 32)
    (dataCrc slots) body) slots

/-- Packets of a transfer: 4 KiB of data in each (R302). -/
def postData (s : State) (dst job dstCore srcCore tag stepNo : Nat) (data : List Byte) : State :=
  (List.range ((data.length + 4095) / 4096)).foldl (fun t i =>
    postPacket t 1 dst job dstCore srcCore tag stepNo (4096 * i) ((data.drop (4096 * i)).take 4096) 0#256) s

/-- A packet of the transfers between cores, from plan index `src` of the job on partition `p` to one of a device of its block. -/
def postToCore (s : State) (p typ pos dstCore srcCore tag : Nat) (data : List Byte) : State :=
  match s.job p, (s.part p).plan with
  | some j, some pl =>
    match j.block[pos]? with
    | some dst =>
      let no := match j.hold with
        | some h => if j.replaying then h.stepNo else j.stepNo
        | none => j.stepNo
      if typ = 1 then postData s dst pl.jobId dstCore srcCore tag no data
      else postPacket s typ dst pl.jobId dstCore srcCore tag no 0 [] 0#256
    | none => s
  | _, _ => s

/-- The header of a message of the device itself, of type 4 to 11; what its BODY holds the manual does not lay out (log entry 105). -/
def messageHeader (s : State) (typ dst k : Nat) : BitVec 512 :=
  makeHeader typ 0 dst s.link.coord 0 0xFFFF 0xFFFF 0 0 0 (s.stroke.number % 2 ^ 32) (dataCrc []) (Config.messageBody k)

/-- A heartbeat leaves over every buddy port and by the torus route (R319). -/
def postHeartbeat (s : State) : State :=
  if !s.link.buddyValid then s
  else
    let h := messageHeader s 7 s.link.buddy (s.freeNat 0)
    let s1 := ((portsOf s 6).filter (portServes s)).foldl (fun t n => sendOn t n false false h []) s
    { sendPacket s1 none h [] with freeCtr := s.freeCtr + 1 }

/-- An announcement leaves by every port that serves (R311). -/
def postAnnouncement (s : State) : State :=
  let k := s.freeNat 0
  let t := ((List.range 12).filter (portServes s)).foldl (fun t n => sendOn t n false false (messageHeader s 10 (s.port n).peer k) []) s
  { t with freeCtr := s.freeCtr + 1 }

end Sys2Proof.Machine
end

