-- ==== Sys2Proof/Machine/Pairs.lean ====
section
/-! DEFINITION. Buddy pairs: their states, heartbeats, mirrors and adoption (R222, R316 to R324). -/

namespace Sys2Proof.Machine

/-! ### States of a pair (R316, R319) -/

/-- A buddy port, and a torus port, of this device is UP. -/
def buddyUp (s : State) : Bool := s.ports.any (fun (_, x) => x.dir == 6 && x.state == .up)
def torusUp (s : State) : Bool := s.ports.any (fun (_, x) => decide (x.dir < 6) && x.state == .up)

/-- `LINK.PAIR_CFG` of a partition: EN, MIRROR_GIB, GRACE in ms. -/
def pairEn (s : State) (p : Nat) : Bool := (s.jobReg p 0x12C).getLsbD 0
def mirrorGib (s : State) (p : Nat) : Nat := ((s.jobReg p 0x12C).extractLsb' 8 8).toNat
def pairGrace (s : State) (p : Nat) : Nat := max 1 ((s.jobReg p 0x12C).extractLsb' 16 4).toNat

def setPair (s : State) (p : Nat) (f : Pair → Pair) : State := s.updPart p (fun x => { x with pair := f x.pair })

/-- Both devices of the pair serve the same edition (R293, R316). -/
def sameEdition (x : Part) : Bool := x.pair.peerEdition == x.edition

/-- What the partner tells of its side fits this one (R316): equal plans and extents, the same block position, both or neither the entry
device of their jobs. -/
def peerFits (s : State) (p : Nat) : Bool :=
  let x := s.part p
  match x.pair.peer, x.plan, x.job with
  | some q, some pl, some j => q.ok && q.digest == pl.digest && q.extents == (blockX s p, blockY s p, blockZ s p) && q.pos == j.pos
      && q.entry == pl.entry
  | _, _, _ => false

/-- The mirror pool is at least as large as the partner partition's page pool (R317). -/
def mirrorHolds (s : State) (p : Nat) : Bool := match (s.part p).pair.peer with
  | some q => decide (q.pages ≤ 4096 * mirrorGib s p)
  | none => false

/-- The conditions of R316 but for the port. -/
def pairReady (s : State) (p : Nat) : Bool :=
  let x := s.part p
  s.link.profile == 3 && pairEn s p && mirrorGib s p != 0 && peerFits s p && sameEdition x
  && (match x.job with
      | some j => !j.broken
      | none => false)

/-- UNPAIRED: what this device mirrors of its partner is discarded. -/
def Pair.unpaired (r : Pair) : Pair :=
  { r with state := .unpaired, mirror := [], held := [], caughtUp := false, adoptDue := false, peerDecision := false }

/-- SYNC: the copy of the committed state begins anew on both sides. -/
def Pair.toSync (r : Pair) : Pair :=
  { r with state := .sync, mirror := [], held := [], caughtUp := false, adoptDue := false, peerDecision := false }

/-- Moves a pair as its conditions and the ports stand (R319). PAIRED is entered at boundaries, LOST by the loss of the partner. -/
def pairStep (s : State) (p : Nat) : State :=
  let r := (s.part p).pair
  let cut (t : State) : State :=
    if torusUp t then raise (setPair t p (fun r => { r with state := .solo })) (pgLink 0) 11
    else setPair t p (fun r => { r with state := .isolated })
  match r.state with
  | .unpaired => if pairReady s p && buddyUp s then setPair s p Pair.toSync else s
  | .sync => if pairReady s p && buddyUp s then s else setPair s p Pair.unpaired
  | .paired => if !pairReady s p then setPair s p Pair.unpaired else if buddyUp s then s else cut s
  | .solo =>
    if !pairReady s p then setPair s p Pair.unpaired
    else if buddyUp s then setPair s p Pair.toSync
    else if torusUp s then s else cut s
  | .isolated =>
    if !pairReady s p then setPair s p Pair.unpaired
    else if buddyUp s then setPair s p Pair.toSync
    else if torusUp s then cut s else s
  | .suspended =>
    if !pairReady s p then setPair s p Pair.unpaired else if buddyUp s then setPair s p Pair.toSync else s
  | .lost => if pairEn s p && (s.part p).plan.isSome then s else setPair s p Pair.unpaired

def pairSteps (s : State) : State := s.parts.foldl (fun t (p, _) => pairStep t p) s

/-! ### Heartbeats (R319) -/

/-- HEARTBEAT_SEND: every 100 us a packet leaves over the buddy ports and by the torus; the age of the last heartbeat of every partition's partner grows by one unit (R327). -/
def execHeartbeatSend (s : State) : Host.Outcome State Fault Refusal :=
  if s.pins.linkIdle then .next s
  else
    let t := postHeartbeat s
    .next { t with
      link := { t.link with hbSent := t.link.hbSent + 1 },
      parts := Tbl.mapVal (fun _ x => { x with pair := { x.pair with hbAge := sat 12 (x.pair.hbAge + 1) } }) t.parts }

/-- HEARTBEAT_RECEIVED (R316, R319): by a buddy port or by the torus, with what the partner says of its side. What it says of its edition
counts in the stroke in which it was sent (DESIGN CHOICE, log entry 103). One that comes by the torus in SOLO or ISOLATED suspends the
pair. -/
def execHeartbeatReceived (part : Nat) (torus : Bool) (number : Nat) (peer : BuddyTell) (s : State) :
    Host.Outcome State Fault Refusal :=
  if (s.part part).state = .none ∨ (if torus then torusUp s else buddyUp s) = false then .next s
  else
    let s1 := setPair s part (fun r => { r with
      hbAge := 0, peer := some peer, peerEdition := if number = s.stroke.number then peer.edition else r.peerEdition })
    let st := (s1.part part).pair.state
    if torus && (st == .solo || st == .isolated) && pairReady s1 part then
      .next (raise (setPair s1 part (fun r => { r with state := .suspended, held := [], peerDecision := false }))
        (pgLink 0) 12)
    else .next (pairStep s1 part)

/-- PARTNER_LOST (R319, R324): no heartbeat for GRACE. In SOLO the pair is LOST and adoption follows; a copy that is not caught up
is discarded. -/
def execPartnerLost (part : Nat) (s : State) : Host.Outcome State Fault Refusal :=
  let r := (s.part part).pair
  if r.hbAge < 10 * pairGrace s part then .next s
  else
    match r.state with
    | .solo => .next (raise (setPair s part (fun r => { r with state := .lost, adoptDue := true, peer := none }))
        (pgLink 0) 13)
    | .sync | .suspended | .unpaired => .next (setPair s part (fun r => { r.unpaired with peer := none }))
    | .paired | .isolated | .lost => .next s

/-! ### Mirrors (R317, R318) -/

def slotStateOf (code : Nat) : SlotState :=
  match code with
  | 1 => .prefill
  | 2 => .decode
  | 3 => .digesting
  | 4 => .pausedDigest
  | 5 => .parking
  | 6 => .parked
  | 7 => .resuming
  | 8 => .building
  | _ => .free

/-- A request's mirrored record, over what is mirrored of it already. -/
def mirrorRequest (s : State) (p : Nat) (old : Option Mirror) (q : MirrorReq) : Mirror :=
  let d := decodeDesc q.desc
  let y : Slot := { Slot.reset with state := slotStateOf q.state, before := slotStateOf q.before, gen := q.gen, part := p }
  let y1 : Slot := { y with desc := d, priority := d.priority, prefixLen := q.prefixLen, promptDone := q.promptDone }
  let y2 : Slot := { y1 with position := q.position, nextSeq := q.nextSeq, lastToken := q.lastToken, frozen := q.frozen }
  let y3 : Slot := { y2 with handle := q.handle, lastListed := s.stroke.number - q.waited }
  match old with
  | none => { slot := y3, pages := [], adapterCrc := q.adapterCrc }
  | some m => { slot := { y3 with stateArea := m.slot.stateArea, cancel := m.slot.cancel }, pages := m.pages,
                adapterCrc := q.adapterCrc }

/-- One item of mirror data becomes mirrored state; the terminator of a request frees its mirror. A request without a standby scroll is
not mirrored (R317, R323). -/
def applyMirror (s : State) (p : Nat) (r : Pair) (m : MirrorMsg) : Pair :=
  match m with
  | .request q =>
    if (decodeDesc q.desc).standbyAddr = 0 then r
    else { r with mirror := Tbl.set r.mirror q.slot (mirrorRequest s p (Tbl.get? r.mirror q.slot) q) }
  | .kv slot key pos data =>
    { r with mirror := Tbl.update r.mirror slot (fun x =>
        let g := Tbl.getD x.pages key { KvPage.reset with part := p }
        { x with pages := Tbl.set x.pages key { g with pos := Tbl.set g.pos pos .committed,
                                                       data := Mem.writeBytes g.data (4096 * pos) (data.take 4096) } }) }
  | .area slot off data =>
    { r with mirror := Tbl.update r.mirror slot (fun x =>
        { x with slot := { x.slot with stateArea := Mem.writeBytes x.slot.stateArea off data } }) }
  | .cancel slot =>
    { r with mirror := Tbl.update r.mirror slot (fun x => { x with slot := { x.slot with cancel := some (0, 0) } }) }
  | .ended slot => { r with mirror := Tbl.erase r.mirror slot }

/-- Pages of 256 KiB in the mirror pool, with those that held data will need. -/
def mirrorPages (r : Pair) : Nat := (r.mirror.map (fun (_, m) => m.pages.length)).sum
def heldPages (r : Pair) : List (Nat × Nat) :=
  (r.held.filterMap (fun m => match m with
    | .kv slot key _ _ =>
      (match (Tbl.get? r.mirror slot).bind (fun x => Tbl.get? x.pages key) with
        | some _ => none
        | none => some (slot, key))
    | _ => none)).dedup

/-- MIRROR_DATA (R317, R318): staged data is held on the blotter until the partner's COMMIT, unless the mirror pool is full (R324);
other data is the copy of committed state. -/
def execMirrorData (part : Nat) (staged : Bool) (m : MirrorMsg) (s : State) : Host.Outcome State Fault Refusal :=
  let r := (s.part part).pair
  if !(r.state == .sync || r.state == .paired) || !buddyUp s then .next s
  else
    let r1 := { r with held := r.held ++ [m] }
    if 4096 * mirrorGib s part < mirrorPages r + (heldPages r1).length then .next (raise s (pgLink 0) 15)
    else if staged then .next (setPair s part (fun _ => r1))
    else .next (setPair s part (fun r => applyMirror s part r m))

/-- MIRROR_ACK (R318, R319): kind 0 all mirror data of the step, 1 the forwarded decision, 2 the copy of the committed state. -/
def execMirrorAck (part kind : Nat) (s : State) : Host.Outcome State Fault Refusal :=
  let r := (s.part part).pair
  if !(r.state == .sync || r.state == .paired) || !buddyUp s then .next s
  else
    match kind with
    | 0 => .next (setPair s part (fun r => { r with sentAcked := true }))
    | 1 => .next (setPair s part (fun r => { r with decisionAcked := true }))
    | 2 => .next (setPair s part (fun r => { r with caughtUp := true }))
    | _ => .next s

/-- At a boundary: data held for a step whose COMMIT the partner has forwarded becomes mirrored state (R318), and a pair whose copy
has caught up is PAIRED (R319), where the mirror pool is large enough (R317). -/
def pairBoundary (s : State) (p : Nat) : State :=
  let r := (s.part p).pair
  let s1 := if r.peerDecision then
      setPair s p (fun r => { r.held.foldl (applyMirror s p) r with held := [], peerDecision := false })
    else s
  if r.state = .sync ∧ r.caughtUp ∧ mirrorHolds s p then raise (setPair s1 p (fun r => { r with state := .paired })) (pgLink 0) 10 else s1

/-! ### Adoption (R320, R321, R323) -/

/-- CRC of the adapter image in a slot (R73). -/
def adapterCrc (x : Part) (d : Desc) : Option Nat :=
  (adapterAt x d.adapter).map (fun a => numAt a.image 0x14 4)

/-- The adapter that a mirrored request names is not here. -/
def adapterGone (x : Part) (m : Mirror) : Bool :=
  namesAdapter m.slot.desc && (adapterCrc x m.slot.desc).isNone
  || namesAdapter m.slot.desc && adapterCrc x m.slot.desc != m.adapterCrc

/-- State in which a mirrored request is adopted, and the CTRL of its first step where that is a resumed one. -/
def adoptedState (m : Mirror) : SlotState × Nat :=
  match m.slot.state with
  | .digesting => (m.slot.before, 0)
  | .parking => (.parked, 0)
  | .resuming => (m.slot.before, if m.pages.isEmpty then 2 else 3)
  | st => (st, 0)

/-- The mirrored pages of a request move into the partition's pool, which grows by them. -/
def adoptPages (s : State) (p n : Nat) (m : Mirror) : State :=
  m.pages.foldl (fun t (key, g) =>
    let x := t.part p
    let k := x.pageBase + x.pagesTotal
    let t1 := t.setPart p { x with pagesTotal := x.pagesTotal + 1,
                                   pages := Tbl.set x.pages k { g with part := p, owner := .priv n } }
    let y := t1.slot n
    setMapWord (t1.setSlot n { y with kvMap := Tbl.set y.kvMap key k }) p n key k) s

/-- The request in its new slot: records go on at the standby scroll. -/
def adoptSlot (s : State) (p n : Nat) (m : Mirror) : State :=
  let old := s.slot n
  let st := adoptedState m
  let hpages := match m.slot.handle with
    | some h => (s.handle h).pages
    | none => []
  let y : Slot := { m.slot with state := st.1, gen := (old.gen + 1) % 65536, part := p, takeover := true }
  let y1 : Slot := { y with base := m.slot.nextSeq, consumed := m.slot.nextSeq, kvMap := hpages, cancel := none }
  let y2 : Slot := { y1 with resumeCtrl := st.2, resumedFlag := decide (st.2 ≠ 0), lastEndGen := old.lastEndGen }
  let y3 : Slot := { y2 with lastEndSeq := old.lastEndSeq }
  let s1 := { s.setSlot n y3 with freeCtr := s.freeCtr + 1 }
  let s2 := match m.slot.handle with
    | some h => s1.setHandle h { s1.handle h with users := (s1.handle h).users + 1 }
    | none => s1
  adoptPages (initMap s2 p n hpages) p n m

/-- A mirrored request that finds no slot ends on the standby scroll with END 4; the record's SLOT and GEN are open. -/
def endUnplaced (s : State) (p : Nat) (m : Mirror) : State :=
  let y : Slot := { m.slot with gen := s.openAt 0 65536, takeover := true }
  let bs := recordBytes y (s.openAt 1 65536) 0xFFFFFFFF 0 0 4 s.stroke.number (lastPos s y)
  let x := s.part p
  let s1 := { s with freeCtr := s.freeCtr + 8 }
  let s2 := if notEntry s p then s1
    else if x.bme then hostWrite s1 (recordAddr y) bs
    else s1.setPart p { x with heldRecords := x.heldRecords ++ [(recordAddr y, bs)] }
  if notEntry s p then s2
  else turnedAway s2 p 5 4 m.slot.desc.hostTag

/-- On the entry device the end of a request writes records and completions; on another it only frees the slot. -/
def endHere (s : State) (p n code : Nat) : State :=
  if notEntry s p then freeSlot s p n code else terminate s p n code s.stroke.number

/-- Adopts one mirrored request (R320, R323); without a standby scroll it cannot be (R222). -/
def adoptOne (p : Nat) (s : State) (m : Mirror) : State :=
  if m.slot.desc.standbyAddr = 0 then s
  else match freeSlotList s p with
  | [] => endUnplaced s p m
  | ns =>
    let n := pickFrom s 0 ns
    let s1 := adoptSlot s p n m
    if m.slot.cancel.isSome then endHere s1 p n 3
    else if adapterGone (s.part p) m then endHere s1 p n 4
    else if notEntry s p then s1
    else complete s1 p false (slotEntry s1 n 11 0 m.slot.desc.hostTag s.stroke.number)

/-- ADOPT at a boundary: the mirror becomes requests of the partition, and the pair is UNPAIRED (R319, R320). A mirror of another edition
is not adopted (R293). -/
def adopt (s : State) (p : Nat) : State :=
  let ms := if sameEdition (s.part p) then (s.part p).pair.mirror else []
  let s1 := ms.foldl (fun t (_, m) => adoptOne p t m) s
  let s2 := setPair s1 p (fun r => { r.unpaired with adopted := sat 16 ms.length })
  raise s2 (pgLink 0) 14

end Sys2Proof.Machine
end

