-- ==== Sys2Proof/Machine/PlanImage.lean ====
section
/-! DEFINITION. Stroke plan binaries: layout, instruction checks and timing sections (R128 to R130, R137, R138, R152, R154, R180, R181). -/

namespace Sys2Proof.Machine

/-! ### Timing tables (R137, R154, R180) -/

/-- Issue, latency and occupancy of an opcode on the stepping `ttid`: the fixed part of each figure. -/
def timingOf (ttid : Nat) (c : Opcode) : List Nat :=
  let b1 := ttid == 0x00B1
  match c with
  | .aeval => [1, 648, 640] | .aevalb => [1, 1288, 1280] | .athr => [1, 184, 176] | .arange => [1, 1, 0]
  | .arefc => [1, 648, 640] | .achk => [1, 4, 0] | .aproof => [1, 648, 640]
  | .qb4 => [1, 10, 4] | .qb8 => [1, 12, 4] | .dqc => [1, 8, 1] | .cvt => [1, 4, 1]
  | .ldv => [1, 6, 1] | .stv => [1, 1, 1] | .dmar => [1, 420, 1] | .dmaw => [1, 380, 1] | .kvap => [1, 96, 1]
  | .kvgt => [1, 440, 1] | .mimg => [1, 420, 1]
  | .send => [1, 24, 1] | .recv => [1, 4, 0] | .lig => [1, 8, 4] | .mcast => [1, 24, 1]
  | .nop => [1, 0, 0] | .jmp => [3, 0, 0] | .brp => [3, 0, 0] | .loop => [2, 0, 0] | .halt => [1, 0, 0] | .wstrk => [1, 0, 0]
  | .bar => [1, 64, 0] | .fence => [1, 1, 0] | .movsr => [1, 1, 0]
  | .li => [1, 1, 0] | .alu => [1, 2, 0] | .addi => [1, 1, 0] | .cmp => [1, 1, 0] | .sel => [1, 1, 0]
  | .mma8 => [1, 12, 8] | .mmah => [1, 24, 16] | .mma4 => [1, 12, 8]
  | .vfma => [1, 6, 1] | .valu => [1, 3, 1] | .vred => [1, 10, 2]
  | .vexp => [1, if b1 then 12 else 9, 1] | .vrsq => [1, if b1 then 14 else 11, 1]
  | .topk => [1, 10, 4] | .samp => [1, if b1 then 40 else 34, 8]
  | .reqn => [1, 6, 0] | .toko => [1, 4, 1] | .canq => [1, 8, 0] | .spec => [1, 4, 1]
  | .blot => [1, 440, 1] | .dgst => [1, 4, 1] | .susp => [1, 1, 0] | .fcpy => [1, 24, 16]

/-! ### Header and sections (R128, R129) -/

def piTtid (b : List Byte) : Nat := numAt b 0x06 2
def piNbind (b : List Byte) : Nat := numAt b 0x0C 2
def piNrole (b : List Byte) : Nat := numAt b 0x0E 2
def piEdition (b : List Byte) : Nat := numAt b 0x10 8
def piHbmKib (b : List Byte) : Nat := numAt b 0x1C 4
def piTt (b : List Byte) : Nat := numAt b 0x20 8
def piBind (b : List Byte) : Nat := numAt b 0x28 8
def piRole (b : List Byte) : Nat := numAt b 0x30 8
def piProj (b : List Byte) : Nat := numAt b 0x38 8

def inside (b : List Byte) (off n : Nat) : Bool := decide (off + n ≤ b.length)

def piHeader (b : List Byte) (len : Nat) : Bool :=
  decide (0x40 ≤ b.length) && bytesAt b 0 4 == [0x46#8, 0x5A#8, 0x50#8, 0x4C#8] && numAt b 4 2 == 1
  && (piTtid b == 0x00B1 || piTtid b == 0x00C0) && numAt b 8 4 == len && b.length == len && decide (len ≤ 2 ^ 28)
  && decide (1 ≤ piNbind b) && decide (piNbind b ≤ 64) && decide (1 ≤ piNrole b) && decide (piNrole b ≤ 1024)
  && decide (numAt b 0x18 4 ≤ 0x180000)
  && piTt b % 8 == 0 && piBind b % 8 == 0 && piRole b % 8 == 0 && piProj b % 8 == 0
  && inside b (piTt b) 2048 && inside b (piBind b) (32 * piNbind b) && inside b (piRole b) (16 * piNrole b)

/-- The figures of an opcode in the timing section. -/
def piTiming (b : List Byte) (op : Nat) : List Nat := (List.range 3).map (fun k => numAt b (piTt b + 8 * op + 2 * k) 2)
def piTimingForm (b : List Byte) : Bool :=
  (List.range 256).all (fun op => match opcodeOf op with
    | some _ => zeroAt b (piTt b + 8 * op + 6) 2
    | none => zeroAt b (piTt b + 8 * op) 8)

/-- Role `r`: offset of its code and instruction count. -/
def piRoleOff (b : List Byte) (r : Nat) : Nat := numAt b (piRole b + 16 * r) 8
def piRoleCnt (b : List Byte) (r : Nat) : Nat := numAt b (piRole b + 16 * r + 8) 4
def piRoleForm (b : List Byte) : Bool :=
  (List.range (piNrole b)).all (fun r =>
    piRoleOff b r % 8 == 0 && decide (1 ≤ piRoleCnt b r) && decide (piRoleCnt b r ≤ 16384)
    && zeroAt b (piRole b + 16 * r + 12) 4 && inside b (piRoleOff b r) (8 * piRoleCnt b r))
def piRoleCode (b : List Byte) (r : Nat) : List W64 :=
  (List.range (piRoleCnt b r)).map (fun i => BitVec.ofNat 64 (numAt b (piRoleOff b r + 8 * i) 8))

/-- The projection table; none is declared with offset 0. -/
def piProjCnt (b : List Byte) : Nat := if piProj b = 0 then 0 else numAt b (piProj b) 4
def piProjs (b : List Byte) : List Proj :=
  (List.range (piProjCnt b)).map (fun k =>
    let a := piProj b + 8 + 16 * k
    { id := numAt b a 4, nIn := numAt b (a + 4) 4, nOut := numAt b (a + 8) 4 })

def distinctIds : List Proj → Bool
  | [] => true
  | x :: xs => !xs.any (fun y => y.id == x.id) && distinctIds xs

def piProjForm (b : List Byte) : Bool :=
  piProj b == 0
  || (inside b (piProj b) 8 && decide (piProjCnt b ≤ 4096) && zeroAt b (piProj b + 4) 4
      && inside b (piProj b + 8) (16 * piProjCnt b) && distinctIds (piProjs b)
      && (List.range (piProjCnt b)).all (fun k => zeroAt b (piProj b + 8 + 16 * k + 12) 4)
      && (piProjs b).all (fun x => x.nIn != 0 && x.nOut != 0))

/-- Bind entry `e`. -/
def biAt (b : List Byte) (e off n : Nat) : Nat := numAt b (piBind b + 32 * e + off) n
def biNcore (b : List Byte) (e : Nat) : Nat := biAt b e 0 2
def biCp (b : List Byte) (e : Nat) : Nat := biAt b e 4 4
def biMap (b : List Byte) (e : Nat) : Nat := biAt b e 8 8
def biData (b : List Byte) (e : Nat) : Nat := biAt b e 0x10 8
def biDataLen (b : List Byte) (e : Nat) : Nat := biAt b e 0x18 4
def biDataSram (b : List Byte) (e : Nat) : Nat := biAt b e 0x1C 4

/-- Core-map record `k` of a bind entry. -/
def biCore (b : List Byte) (e k : Nat) : CoreMap :=
  let a := biMap b e + 8 * k
  { role := numAt b a 2, slot := numAt b (a + 2) 2,
    tiles := (List.range 32).map (fun n => numAt b (numAt b (a + 4) 4 + 4 * n) 4) }

def biForm (b : List Byte) (e : Nat) : Bool :=
  decide (1 ≤ biNcore b e) && decide (biNcore b e ≤ 1024) && decide (1 ≤ biAt b e 2 2) && decide (biAt b e 2 2 ≤ 1024)
  && biDataLen b e % 64 == 0 && biDataSram b e % 64 == 0 && inside b (biMap b e) (8 * biNcore b e)
  && inside b (biData b e) (biDataLen b e)
  && (e == 0 || decide (biNcore b (e - 1) < biNcore b e))
  && (List.range (biNcore b e)).all (fun k =>
    decide ((biCore b e k).role < piNrole b) && inside b (numAt b (biMap b e + 8 * k + 4) 4) 128)

/-- BAD_FORMAT of R132: header, timing section, directory, bind entries and projection table. -/
def piForm (b : List Byte) (len : Nat) : Bool :=
  piHeader b len && piTimingForm b && piRoleForm b && piProjForm b && (List.range (piNbind b)).all (biForm b)

/-! ### Instructions (R152, R181) -/

/-- A direct branch or a loop body stays within the role's `n` instructions; `i` is the instruction's index. -/
def targetOk (c : Opcode) (f : Fields) (i n : Nat) : Bool :=
  match c with
  | .jmp => fieldFlag f 0 || decide (immBits f 0 14 < n)
  | .brp => decide (immBits f 0 14 < n)
  | .loop => decide (i + immBits f 0 14 < n)
  | _ => true

def wordOk (w : W64) (i n : Nat) : Bool :=
  match opcodeOf (w.extractLsb' 56 8).toNat with
  | none => false
  | some c => opOk c (fieldsOf w) && targetOk c (fieldsOf w) i n

def roleOk (ws : List W64) : Bool := ws.zipIdx.all (fun (w, i) => wordOk w i ws.length)

def piEncoding (b : List Byte) : Bool := (List.range (piNrole b)).all (fun r => roleOk (piRoleCode b r))

/-! ### The timing comparison (R138) -/

/-- The first figure in which the device is slower: opcode, figure, the device's value, the binary's. -/
def slowerFigure (b : List Byte) (ttid op : Nat) : Option (Nat × Nat × Nat × Nat) :=
  match opcodeOf op with
  | none => none
  | some c =>
    let dev := timingOf ttid c
    let bin := piTiming b op
    (List.range 3).findSome? (fun k =>
      if bin.getD k 0 < dev.getD k 0 then some (op, k, dev.getD k 0, bin.getD k 0) else none)

def firstSlower (b : List Byte) (ttid : Nat) : Option (Nat × Nat × Nat × Nat) :=
  (List.range 256).findSome? (slowerFigure b ttid)

/-- `PLAN.TTDIFF` (R151). -/
def ttdiffWord (x : Nat × Nat × Nat × Nat) : W32 :=
  BitVec.ofNat 32 (x.1 + 256 * x.2.1 + 1024 * (x.2.2.1 % 2048) + 2 ^ 21 * (x.2.2.2 % 2048))

end Sys2Proof.Machine
end

