-- ==== Sys2Proof/Machine/Plans.lean ====
section
/-! DEFINITION. Loading and unloading plans, and binding them to a partition's cores (R109, R128 to R138, R141, R151, R178, R216,
R309). -/

namespace Sys2Proof.Machine

/-! ### The block of a job (R309) -/

/-- Coordinates of the block's devices by position. -/
def blockOf (s : State) (p : Nat) : List Nat :=
  let o := blockOrigin s p
  (List.range (blockZ s p)).flatMap (fun dz => (List.range (blockY s p)).flatMap (fun dy =>
    (List.range (blockX s p)).map (fun dx =>
      coordOf ((coordX o + dx) % sizeX s) ((coordY o + dy) % 4) ((coordZ o + dz) % 8))))

/-- This device's position in the block. -/
def blockPos (s : State) (p : Nat) : Nat :=
  let o := blockOrigin s p
  let c := s.link.coord
  (coordX c + sizeX s - coordX o % sizeX s) % sizeX s
    + blockX s p * ((coordY c + 4 - coordY o) % 4 + blockY s p * ((coordZ c + 8 - coordZ o) % 8))

/-! ### Chain order (R109, R178) -/

/-- Whether contributor `a` is added before `b` at the destination core `d`. Of two plan indices that one core runs, with terms of one array
number, the lower comes first (DESIGN CHOICE, log entry 94). -/
def chainBefore (d : Nat) (a b : ChainTerm) : Bool :=
  let da := coreDist a.core d
  let db := coreDist b.core d
  if da ≠ db then decide (db < da)
  else if a.core ≠ b.core then decide (a.core < b.core)
  else if a.array ≠ b.array then decide (a.array < b.array)
  else decide (a.pindex < b.pindex)

def chainInsert (d : Nat) (a : ChainTerm) : List ChainTerm → List ChainTerm
  | [] => [a]
  | b :: bs => if chainBefore d a b then a :: b :: bs else b :: chainInsert d a bs

/-- The order of contributors, given by plan index and array, under the mapping in force. -/
def chainSort (s : State) (lcores : List Nat) (pindex : Nat) (offs : List (Nat × Nat)) : List ChainTerm :=
  let core := fun k => runCore s (lcores.getD k 0)
  (offs.map (fun o => ({ core := core o.1, array := o.2, pindex := o.1 } : ChainTerm))).foldl (fun acc a => chainInsert (core pindex) a acc) []

/-- Contributors of a list entry for the receiver `pindex`: a signed offset in [10:0], an array in [15:11]. -/
def chainEntry (ncore pindex w : Nat) : Option (Nat × Nat) :=
  let off : Int := if w % 2048 < 1024 then (w % 2048 : Nat) else (w % 2048 : Nat) - 2048
  let k := (pindex : Int) + off
  if 0 ≤ k ∧ k < ncore then some (k.toNat, w / 2048 % 32) else none

/-- The chain-mode receipts of a role: tag and list address (R176, R178). -/
def chainReceipts (ws : List W64) : List (Nat × Nat) :=
  ws.filterMap (fun w =>
    let f := fieldsOf w
    if opcodeOf (w.extractLsb' 56 8).toNat = some .lig ∧ immBits f 17 1 = 1 ∧ immBits f 16 1 = 1 then
      some (immBits f 0 16, 128 * immBits f 18 14)
    else none)

/-- The chains of plan index `k`, read from the SRAM of its core. -/
def chainsAt (s : State) (pl : Plan) (k : Nat) : List Chain :=
  match pl.cores[k]? with
  | none => []
  | some cm =>
    let m := (s.scribe (pl.lcores.getD k 0)).sram
    (chainReceipts (pl.roles.getD cm.role [])).map (fun (tag, addr) =>
      let n := leNat (Mem.readBytes m addr 4)
      let offs := (List.range (min n 1023)).filterMap (fun i =>
        chainEntry pl.ncore k (leNat (Mem.readBytes m (addr + 4 + 4 * i) 4)))
      { pindex := k, tag := tag, addr := addr, count := n, offs := offs, order := chainSort s pl.lcores k offs })

/-- Computes every chain order of a partition's plan anew, as at a boundary that changes the remap table (R109). -/
def rebindChains (s : State) (p : Nat) : State :=
  s.updPart p (fun x => { x with plan := x.plan.map (fun pl =>
    { pl with chains := pl.chains.map (fun c => { c with order := chainSort s pl.lcores c.pindex c.offs }) }) })

/-! ### Orders of `PLAN.CMD` (R132, R134, R151) -/

def planResult (s : State) (p r : Nat) : State := s.updPart p (fun x => { x with pstat := { x.pstat with result := r } })

/-- GO of `PLAN.CMD` with an operation: ignored while BUSY. -/
def planOrder (src p op : Nat) (d : W32) (act : W32 → State → State) (s : State) : State :=
  let word := (d &&& ~~~(0x3#32)) ||| BitVec.ofNat 32 op
  orderWrite s src (pgPlan p) 0x04C word (fun t => if (t.part p).pstat.busy ≠ 0 then t else act word t)

/-- PLAN_LOAD: refused with BUSY while a plan is loaded; otherwise the image is read (R132, R134). -/
def startPlanLoad (p : Nat) (word : W32) (s : State) : State :=
  let x := s.part p
  if x.plan.isSome then raise (planResult s p 9) (pgPlan p) 1
  else
    let st : PlanStat := { PlanStat.reset with
      busy := 1, cmd := word, addr := s.pair (pgPlan p) 0x040 0x044, len := s.field (pgPlan p) 0x048 0 29,
      startAt := s.pair (pgPlan p) 0x050 0x054, jobId := (s.reg (pgPlan p) 0x058).toNat }
    s.setPart p { x with pstat := st }

def execPlanLoad (src part : Nat) (data : W32) (s : State) : Host.Outcome State Fault Refusal :=
  .next (planOrder src part 1 data (startPlanLoad part) s)

/-- PLAN_UNLOAD (R134): refused with BUSY while a request slot is occupied. With no plan loaded, or with a job that has no step in
progress and no stroke to wait for, see `unloadPlan`. -/
def startUnload (p : Nat) (s : State) : State :=
  let x := s.part p
  if !(slotsOf s p).isEmpty then planResult s p 9
  else
    match x.plan with
    | none => raise (planResult s p 0) (pgPlan p) 5
    | some _ =>
      let s1 := s.setPart p { x with pstat := { x.pstat with busy := 2 } }
      s1.updJob p (fun j => { j with unloading := true })

def execPlanUnload (src part : Nat) (data : W32) (s : State) : Host.Outcome State Fault Refusal :=
  .next (planOrder src part 2 data (fun _ => startUnload part) s)

/-! ### Binding (R131, R132) -/

/-- Logical cores of a partition that are not HOSTED, in ascending order. -/
def ownedCores (s : State) (p : Nat) : List Nat := ownCores s p

/-- The bind entry with the largest NCORE that does not exceed the owned count. -/
def boundEntry (b : List Byte) (owned : Nat) : Option Nat :=
  ((List.range (piNbind b)).filter (fun e => decide (biNcore b e ≤ owned))).getLast?

/-- Every used array holds the tile that the core map names (R133). -/
def placementOk (s : State) (b : List Byte) (e : Nat) (ls : List Nat) : Bool :=
  (List.range (biNcore b e)).all (fun k =>
    (biCore b e k).tiles.zipIdx.all (fun (t, n) =>
      t == 0xFFFFFFFF ||
        (let a := s.array (arrayKey s (ls.getD k 0) n)
         a.resState != .empty && a.tile == t)))

/-- The bound data, the scratch pool and the serving area fit (R132, R216). -/
def spaceOk (s : State) (p : Nat) (b : List Byte) (e : Nat) : Bool :=
  let x := s.part p
  let n := x.cfg.scount
  let hbm := 1024 * piHbmKib b
  let ends := fun off size => decide ((s.reg (pgReq p) off).toNat * 4096 + size * n ≤ hbm)
  decide (biDataSram b e + biDataLen b e ≤ 0x180000) && decide (hbm ≤ x.cfg.scratch * 2 ^ 20)
  && ends 0x094 256 && ends 0x098 16384 && ends 0x09C (4 * layersOf s p * maxBlkOf s p)

/-- What the checks of R132 from the timing section on find: a result code other than 0 refuses the load. -/
def planChecks (s : State) (p : Nat) (b : List Byte) : Nat × Option Nat :=
  let x := s.part p
  let strict := !x.pstat.cmd.getLsbD 2
  let ls := ownedCores s p
  if strict && (firstSlower b s.sec.ttid).isSome then (3, none)
  else
    match boundEntry b ls.length with
    | none => (4, none)
    | some e =>
      if strict && decide (planLimit s < biCp b e) then (5, none)
      else if piEdition b ≠ x.edition then (6, none)
      else if !placementOk s b e ls then (7, none)
      else if !spaceOk s p b e then (8, none)
      else if x.pstat.startAt < s.stroke.number + 2 then (11, none)
      else (0, some e)

/-- The special registers of plan index `k` in the step that stroke `n` opens (R141). -/
def specialRegs (s : State) (p : Nat) (pl : Plan) (k n : Nat) : List W32 :=
  let w := BitVec.ofNat 32
  [w k, w pl.ncore, w p, w n, (match pl.cores[k]? with
    | some c => w c.slot
    | none => 0xFFFFFFFF#32), w s.sec.ttid, w (s.part p).edition]

/-- The scribe of plan index `k` as the loader leaves it (R130 to R132, R139). -/
def bindScribe (b : List Byte) (e p : Nat) (pl : Plan) (s : State) (lk : Nat × Nat) : State :=
  let (l, k) := lk
  let old := s.scribe l
  let data := bytesAt b (biData b e) (biDataLen b e)
  let sc : Scribe := { Scribe.reset with
    part := p, pindex := k, special := specialRegs s p pl k 0, sram := Mem.writeBytes old.sram (biDataSram b e) data }
  let arch : Arch := { Arch.reset with epoch := s.freeCtr + 1 }
  let sc1 : Scribe := { sc with arch := arch, ckpt := arch, nInstr := 1 }
  let sc2 : Scribe := match pl.cores[k]? with
    | some c => { sc1 with role := c.role, nInstr := (pl.roles.getD c.role []).length }
    | none => sc1
  s.setScribe l sc2

/-- The plan as bound. -/
def planOf (s : State) (p : Nat) (b : List Byte) (e : Nat) : Plan :=
  let st := (s.part p).pstat
  let ls := ownedCores s p
  { jobId := st.jobId, entry := st.cmd.getLsbD 3, edition := piEdition b, ttid := piTtid b, ncore := biNcore b e,
    startAt := st.startAt, hbmKib := piHbmKib b,
    roles := (List.range (piNrole b)).map (piRoleCode b), cores := (List.range (biNcore b e)).map (biCore b e), lcores := ls,
    projs := piProjs b, chains := [], digest := digest32 b }

/-- A job that has not started: its counts are 0 (R100). -/
def Job.loaded (block : List Nat) (pos : Nat) : Job :=
  { stepNo := 0, started := false, inStep := false, openStroke := 0, span := 0, total := 0, stretched := false, partialPol := false, auto := false,
    refuseAll := false, abandoned := false, strRun := 0, strCnt := 0, cleanRun := 0, lastSpan := 0, halted := false, haltCause := 0,
    resumeReq := false, unloading := false, broadReq := 0, broadRefused := 0, lastBroadReq := 0, lastBroadRefused := 0,
    refusedAt := [], minSlack := 0, worstLcore := 0, slackOf := [], reqList := [], items := [], suspects := [], fault := none,
    hold := none, replaying := false, barEpoch := 0, pageRecs := [], statuses := [], decision := none,
    statusSent := none, ordersDue := false, payloads := [], payloadsLeft := [], freeRunHold := false,
    numHold := false, joined := false, heard := [], listFixed := false, returned := none, inserted := none, inserting := false, guests := [], dueAt := 0, switchDue := false,
    peersDue := false, broken := false, block := block, pos := pos }

/-- A load that passes every check: the plan is bound, trim adapters are cleared, projection indices rebuilt (R76, R132). -/
def bindPlan (s : State) (p : Nat) (b : List Byte) (e : Nat) : State :=
  let pl := planOf s p b e
  let s1 := pl.lcores.zipIdx.foldl (bindScribe b e p pl) s
  let s2 := { s1 with freeCtr := s1.freeCtr + 1 }
  let chains := (List.range pl.ncore).flatMap (chainsAt s2 pl)
  let s3 := s2.updPart p (fun x => { x with
    plan := some { pl with chains := chains }, trims := [], job := some (Job.loaded (blockOf s p) (blockPos s p)) })
  rebindAdapters s3 p

/-- The status of a load (R151). -/
def loadedStat (s : State) (p : Nat) (b : List Byte) (e : Nat) : PlanStat :=
  let st := (s.part p).pstat
  { st with
    busy := 0, result := 0, ncore := biNcore b e, owned := (ownedCores s p).length, entryIdx := e, cp := biCp b e % 2 ^ 25,
    limit := planLimit s % 2 ^ 25, ttTol := (firstSlower b s.sec.ttid).isSome, budgetTol := decide (planLimit s < biCp b e),
    ttdiff := (match firstSlower b s.sec.ttid with
      | some x => ttdiffWord x
      | none => 0#32) }

/-- A refused load: nothing of it remains. -/
def refuseLoad (s : State) (p r : Nat) (diff : W32) : State :=
  raise (s.updPart p (fun x => { x with pstat := { x.pstat with busy := 0, result := r, ttdiff := diff } })) (pgPlan p) 1

/-- PLAN_LOAD_DONE (R132): the image has been read, or could not be. -/
def execPlanLoadDone (part : Nat) (image : Option (List Byte)) (s : State) : Host.Outcome State Fault Refusal :=
  let st := (s.part part).pstat
  if st.busy ≠ 1 then .next s
  else
    match image with
    | none => .next (refuseLoad s part 10 0#32)
    | some b =>
      if !piForm b st.len then .next (refuseLoad s part 1 0#32)
      else if !piEncoding b then .next (refuseLoad s part 2 0#32)
      else
        match planChecks s part b with
        | (r, none) => .next (refuseLoad s part r (match firstSlower b s.sec.ttid with
            | some x => ttdiffWord x
            | none => 0#32))
        | (_, some e) =>
          let t := (bindPlan s part b e).updPart part (fun x => { x with pstat := loadedStat s part b e })
          let evs := 1 + (if (t.part part).pstat.ttTol then 8 else 0) + (if (t.part part).pstat.budgetTol then 16 else 0)
          .next (raiseAll t [(pgPlan part, evs)])

/-- An unload takes effect (R134): the scratch pool and the instruction stores are released; `TA_CTRL` is reset (R298). The orders that
wait find their requests ended. DESIGN CHOICE (log entry 97): with the projection table go the trim adapters that it numbers, without a
clearing event; R70 clears them at the next plan load, and nothing reads them between. -/
def unloadPlan (s : State) (p : Nat) : State :=
  let ls := match (s.part p).plan with
    | some pl => pl.lcores
    | none => []
  let s1 := ls.foldl (fun t l => t.setScribe l { Scribe.reset with sram := (t.scribe l).sram }) s
  let st := (s1.part p).pstat
  let s2 := s1.updPart p (fun x => { x with
    plan := none, job := none, trims := [], scratch := [], adapters := x.adapters.map (fun (n, a) => (n, { a with index := none })),
    adaptersNew := x.adaptersNew.map (fun (n, a) => (n, { a with index := none })),
    pstat := { st with busy := 0, result := 0, ncore := 0, owned := 0, ttTol := false, budgetTol := false } })
  raise s2 (pgPlan p) 5

end Sys2Proof.Machine
end

