-- ==== Sys2Proof/Machine/Partitions.lean ====
section
/-! DEFINITION. The host interface: partitions and their orders, resets of functions, Bus Master Enable and MSI-X (R328 to R347,
R353, R440). -/

namespace Sys2Proof.Machine

/-! ### Orders of `PART.CMD` (R332, R334, R337, R344, R440) -/

def partResult (s : State) (p r : Nat) : State :=
  let s1 := s.updPart p (fun x => { x with result := r })
  if r = 0 then s1 else raise s1 pgPart 3

/-- An order on the partition that `SEL` names; refused with BUSY while another order of it is pending (R440). -/
def partCmd (src op : Nat) (discard : Bool) (d : W32) (act : Nat → State → State) (s : State) : State :=
  let word := (d &&& ~~~(0xF#32)) ||| BitVec.ofNat 32 (op + (if discard then 8 else 0))
  armedWrite s src pgPart 0x068 word (fun t =>
    let p := t.field pgPart 0x040 0 5
    let x := t.part p
    if x.order.isSome || x.rst.isSome then partResult t p 8 else act p t)

/-- The staged configuration (R347). -/
def stagedCfg (s : State) : PartCfg :=
  let f := s.field pgPart
  { lbase := f 0x044 0 10, lcount := f 0x044 10 11, sbase := f 0x048 0 16, scount := f 0x048 16 16 + 1, quota := f 0x04C 0 15,
    pages := f 0x050 0 22, scratch := f 0x054 0 20, adapt := f 0x058 0 16, image := f 0x05C 0 16,
    share0 := s.reg pgPart 0x060, share1 := s.reg pgPart 0x064 }

/-- Configurations held by the partitions that exist or are being created. -/
def heldCfgs (s : State) : List PartCfg :=
  s.parts.filterMap (fun (_, x) => match x.state with
    | .none => none
    | .creating => some x.orderCfg
    | .ready | .resetting | .destroying => some x.cfg)

def rangesMeet (a n b m : Nat) : Bool := decide (a < b + m) && decide (b < a + n)

/-- HBM of a partition's pools in KiB; the adapter pool receives 1 MiB beyond `ADAPT` (R76, R332). -/
def cfgKib (c : PartCfg) : Nat := 256 * c.pages + 1024 * (c.scratch + (c.adapt + 1) + c.image)
/-- HBM of the mirror pools of enabled pairs (R332). -/
def mirrorKib (s : State) : Nat :=
  (s.parts.map (fun (p, x) => if x.state ≠ .none ∧ pairEn s p then 2 ^ 20 * mirrorGib s p else 0)).sum
/-- The 752 GiB that pools may take. -/
def poolsKib : Nat := 752 * 2 ^ 20

/-- `PART.HBM_FREE` and `PART.CORES_FREE` as they stand (R347). -/
def hbmFreeMib (s : State) : Nat := (poolsKib - ((heldCfgs s).map cfgKib).sum - mirrorKib s) / 1024
def coresFree (s : State) : Nat := 1024 - ((heldCfgs s).map (fun c => c.lcount)).sum

/-- The first limit that a CREATE violates, 0 for none (R332, R353). -/
def createCode (s : State) (p : Nat) : Nat :=
  let c := stagedCfg s
  let held := heldCfgs s
  if (s.part p).state ≠ .none then 1
  else if c.lcount = 0 ∨ 1024 < c.lbase + c.lcount ∨ held.any (fun h => rangesMeet c.lbase c.lcount h.lbase h.lcount) then 3
  else if 65536 < c.sbase + c.scount ∨ held.any (fun h => rangesMeet c.sbase c.scount h.sbase h.scount) then 4
  else if 16384 < c.quota + (held.map (fun h => h.quota)).sum then 5
  else if poolsKib < cfgKib c + (held.map cfgKib).sum + mirrorKib s ∨ c.image < imageMib (Tbl.get? s.bring.boot p) then 6
  else 0

/-- Number of the first KV page of a partition's pool: the device's own numbering (log entry 45). -/
def poolBase (p : Nat) : Nat := 2 ^ 22 * p

/-- The boot image of a partition becomes its CURRENT, or is freed if its places do not fit the range (R353). -/
def claimBoot (s : State) (p : Nat) : State :=
  match Tbl.get? s.bring.boot p with
  | none => s
  | some im =>
    if imgPlacement im.dir (some (s.part p).cfg.lcount) then
      ({ s with bring := { s.bring with boot := Tbl.erase s.bring.boot p } } : State).updPart p
        (fun x => { x with curImage := some im, edition := im.edition, edDigest := im.digest })
    else freeBoot s p

/-- Logical cores of a range. -/
def rangeOf (base n : Nat) : List Nat := (List.range n).map (· + base)

/-- Sets the PART field of the remap entries of a range, and of the cores that hold the numbers (R332). -/
def ownRange (s : State) (c : PartCfg) (p : Nat) : State :=
  (rangeOf c.lbase c.lcount).foldl (fun t l =>
    let r := t.remapOf l
    let t1 := t.setRemap l { r with part := p }
    if r.mode = .unused then t1 else t1.setPcore r.pcore { t1.pcore r.pcore with part := p }) s

/-- A creation takes effect (R332). What belongs to the virtual function itself stays. -/
def doCreate (s : State) (p : Nat) : State :=
  let x := s.part p
  let c := x.orderCfg
  let y : Part := { Part.reset with state := .ready, cfg := c, result := x.result, bme := x.bme, msixMask := x.msixMask }
  let y1 : Part := { y with msixPend := x.msixPend, pagesTotal := c.pages, pageBase := poolBase p, rstLast := x.rstLast }
  raise (claimBoot (ownRange (s.setPart p { y1 with rstTerms := x.rstTerms, rstUnwritten := x.rstUnwritten }) c p) p) pgPart 0

/-- The registers and headers of a partition's pages return to reset (R334). -/
def dropPages (s : State) (p : Nat) : State :=
  { s with
    regs := s.regs.filter (fun (k, _) => k / 4096 / 256 != p || decide (0x2000 * 4096 ≤ k))
    pages := s.pages.filter (fun (n, _) => n / 256 != p || decide (0x2000 ≤ n)) }

/-- A load that runs for the partition is abandoned (R441). -/
def abandonLoad (s : State) (p : Nat) : State :=
  match s.weight.busy with
  | some (q, _, _) => if q = p then { s with weight := { s.weight with abandoned := true } } else s
  | none => s

/-- A destruction takes effect (R334): arrays erased, pools, handles, adapters and image slots freed; a firmware update of the partition
ends (R361). -/
def doDestroy (s : State) (p : Nat) : State :=
  let x := s.part p
  let s1 := erasePart (abandonLoad (fwupAbort s p) p) p
  let s2 := (handlesOf s1 p).foldl freeHandle s1
  let s3 := ownRange s2 x.cfg 0
  let y : Part := { Part.reset with result := x.result, bme := x.bme, msixMask := x.msixMask }
  raise (dropPages (s3.setPart p { y with rstLast := x.rstLast, rstTerms := x.rstTerms, rstUnwritten := x.rstUnwritten }) p)
    pgPart 1

/-- SET_SHARES takes effect (R337). -/
def doShares (s : State) (p : Nat) : State :=
  s.updPart p (fun x => { x with cfg := { x.cfg with share0 := x.orderCfg.share0, share1 := x.orderCfg.share1 } })

/-- The pending order of a partition takes effect. -/
def doPartOrder (s : State) (p : Nat) : State :=
  match (s.part p).order with
  | none => s
  | some o =>
    let s1 := { s.updPart p (fun x => { x with order := none }) with partOrders := s.partOrders.filter (· != p) }
    match o with
    | .create => doCreate s1 p
    | .destroy => doDestroy s1 p
    | .shares => doShares s1 p

/-- Orders take effect in the order of their acceptance (R440). -/
def doPartOrders (s : State) : State := s.partOrders.foldl doPartOrder s

/-- An accepted order waits for the next boundary; in STOPPED it takes effect at once (R332). -/
def acceptOrder (s : State) (p : Nat) (o : PartOrder) (st : PartState) : State :=
  let s1 := s.updPart p (fun x => { x with state := st, order := some o, orderCfg := stagedCfg s, result := 0 })
  let s2 := { s1 with partOrders := s1.partOrders ++ [p] }
  if s.stroke.state = .stopped then doPartOrder s2 p else s2

/-- CREATE (R332, R353): refused with BUSY before step 12 has completed, and with STATE once the part is RETURNED (R378). -/
def execCreate (src : Nat) (data : W32) (s : State) : Host.Outcome State Fault Refusal :=
  .next (partCmd src 1 false data (fun p t =>
    if !t.bring.doneMap.testBit 12 then partResult t p 8
    else if t.sec.lcState = 2 then partResult t p 7
    else
      let c := createCode t p
      if c ≠ 0 then partResult t p c else acceptOrder t p .create .creating) s)

/-- DESTROY (R334). -/
def execDestroy (src : Nat) (data : W32) (s : State) : Host.Outcome State Fault Refusal :=
  .next (partCmd src 2 false data (fun p t =>
    let x := t.part p
    if x.state = .none then partResult t p 2
    else if x.plan.isSome || !(slotsOf t p).isEmpty || partChanging x then partResult t p 7
    else acceptOrder t p .destroy .destroying) s)

/-- SET_SHARES (R337). -/
def execSetShares (src : Nat) (data : W32) (s : State) : Host.Outcome State Fault Refusal :=
  .next (partCmd src 4 false data (fun p t =>
    if (t.part p).state = .none then partResult t p 2 else acceptOrder t p .shares (t.part p).state) s)

/-! ### Resets (R341 to R345) -/

/-- The scribe of a core restarts with an undefined architectural state (R342). -/
def restartScribe (s : State) (l : Nat) : State :=
  let x := s.scribe l
  let arch : Arch := { Arch.reset with epoch := s.freeCtr + 1 }
  let y : Scribe := { Scribe.reset with part := x.part, pindex := x.pindex, role := x.role, nInstr := x.nInstr }
  discardEvals (s.setScribe l { y with special := x.special, sram := x.sram, arch := arch, ckpt := arch }) (s.remapOf l).pcore

/-- The job's step, held step and staged results are discarded, and it is no longer halted (R342). -/
def stopJob (s : State) (p : Nat) : State :=
  match (s.part p).plan, s.job p with
  | some pl, some j =>
    let s0 := releaseProver s p
    let s1 := { pl.lcores.foldl restartScribe s0 with freeCtr := s.freeCtr + 1 }
    let s2 := { s1 with slotsLig := s1.slotsLig.map (fun (x : Nat × List LigFlit) => (x.1, x.2.filter (fun f => !pl.lcores.contains f.lcore))) }
    let y : Job := { Job.loaded j.block j.pos with stepNo := j.stepNo, started := j.started, strRun := j.strRun, strCnt := j.strCnt }
    let y1 : Job := { y with cleanRun := j.cleanRun, lastSpan := j.lastSpan, auto := j.auto, partialPol := j.partialPol }
    let y2 : Job := { y1 with lastBroadReq := j.lastBroadReq, lastBroadRefused := j.lastBroadRefused, slackOf := j.slackOf }
    let y3 : Job := { y2 with minSlack := j.minSlack, worstLcore := j.worstLcore, unloading := j.unloading, broken := j.broken }
    let y4 : Job := { y3 with total := j.total, joined := j.joined, heard := j.heard }
    s2.setJob p { y4 with peersDue := decide (1 < j.block.length), numHold := j.numHold, freeRunHold := j.freeRunHold }
  | _, _ => s

/-- Steps 1 and 2 of R342, at the reset point; a second reset of the partition is ignored (R345). A firmware update of the partition ends
as ABORT ends it (R361; a PART RESET as a function-level reset does: log entry 107). -/
def beginReset (s : State) (p kind : Nat) (discard keepVf : Bool) : State :=
  let x := s.part p
  if x.state = .none ∨ x.state = .creating ∨ x.rst.isSome then s
  else
    let r : ResetRec := { kind := kind, discard := discard, keepVf := keepVf, bmeAtPoint := x.bme, termsDone := false }
    let y : Part := { x with rst := some r, rstLast := kind, rstTerms := 0, rstUnwritten := false }
    let y1 : Part := if kind = 4 then y else { y with msixPend := [], modCount := [], state := .resetting, adBusy := none,
                                                      pstat := { x.pstat with busy := if x.pstat.busy = 1 then 0 else x.pstat.busy } }
    stopJob ((if kind = 4 then s else fwupAbort s p).setPart p y1) p

/-- The END 4 terminator of a request that a reset ends, with the permission of the reset point; no completion follows. -/
def resetTerminator (p : Nat) (write : Bool) (s : State) (n : Nat) : State :=
  let x := s.slot n
  if x.state = SlotState.building ∨ notEntry s p = true then freeSlot s p n 4
  else
    let bs := recordBytes x n 0xFFFFFFFF 0 0 4 s.stroke.number (lastPos s x)
    let s1 := if write then hostWrite s (recordAddr x) bs else s
    let s2 := { s1.setSlot n { x with nextSeq := x.nextSeq + 1 } with freeCtr := s1.freeCtr + 8 }
    let s3 := s2.updPart p (fun y => { y with rstTerms := sat 17 (y.rstTerms + 1) })
    freeSlot s3 p n 4

/-- Bits of the REQ registers that no reset of the VF touches: the fields marked "load" (R244, R342). -/
def reqLoad (off : Nat) : W32 :=
  if [0x040, 0x044, 0x04C, 0x050, 0x054, 0x058, 0x060, 0x064, 0x094, 0x098, 0x09C].contains off then 0xFFFFFFFF#32
  else match off with
    | 0x048 => 0x1F#32
    | 0x068 => 0x1F#32
    | 0x088 => 0x2#32
    | 0x08C => 0x0FFFFFFF#32
    | 0x090 => 0xFFFF#32
    | 0x0A0 => 0x1FFFFF#32
    | _ => 0#32

/-- The RW fields of FUNC and REQ return to reset, but for "load" fields (R342, R346), and so do `INT_RAW` and `INT_EN`, without a message
(R413). -/
def resetVfRegs (s : State) (p : Nat) : State :=
  let regs := s.regs.filterMap (fun (k, v) =>
    if k / 4096 = pgFunc p then none
    else if k / 4096 = pgReq p then
      let m := reqLoad (k % 4096)
      some (k, (v &&& m) ||| (BitVec.ofNat 32 (regReset 19 (k % 4096)) &&& ~~~m))
    else some (k, v))
  let quiet (t : State) (n : Nat) : State := t.setPage n { t.page n with irqEn := true, intRaw := 0#32, intEn := 0#32 }
  quiet (quiet { s with regs := regs } (pgFunc p)) (pgReq p)

/-- Steps 3 and 4 of R342, at the first boundary after the reset point. -/
def resetBoundary (s : State) (p : Nat) : State :=
  match (s.part p).rst with
  | none => s
  | some r =>
    if r.termsDone then s
    else
      let hs := (handlesOf s p).filter (fun h => (s.handle h).state != .building)
      let s1 := hs.foldl freeHandle s
      let s2 := (slotsOf s1 p).foldl (resetTerminator p r.bmeAtPoint) s1
      let s3 := s2.updPart p (fun x => { x with orders := [], cqQueue := [], heldRecords := [] })
      if r.kind = 4 then s3.updPart p (fun x => { x with rst := none })
      else
        let s4 := s3.updPart p (fun x => { x with
          rst := some { r with termsDone := true }, rstUnwritten := !r.bmeAtPoint, tail := 0, cqProd := 0, modCount := [] })
        resetVfRegs s4 p

/-- Step 5 of R342: the reset completes. After a PART RESET the VF's configuration stays and intake is held (R344). -/
def endReset (s : State) (p : Nat) (r : ResetRec) : State :=
  let s1 := s.updPart p (fun x => { x with
    rst := none, state := .ready, discardDue := r.discard, intakeHold := r.kind = 2 || r.kind = 5,
    bme := x.bme && r.keepVf, msixMask := if r.keepVf then x.msixMask else [], msixPend := [] })
  raiseAll s1 [(pgFunc p, 2 ^ 8), (pgPart, 4)]

/-- FLR_COMPLETE (R342): after the boundary that commits the terminators; while no strokes run there is nothing to wait for. -/
def execFlrComplete (part : Nat) (s : State) : Host.Outcome State Fault Refusal :=
  let s1 := if strokesRun s then s else resetBoundary s part
  match (s1.part part).rst with
  | none => .next s
  | some r => if r.termsDone then .next (endReset s1 part r) else .next s

/-- The discards of a PART RESET with `DISCARD`, at the boundary after its completion (R344). -/
def discardBoundary (s : State) (p : Nat) : State :=
  let x := s.part p
  if !x.discardDue then s
  else
    let s1 := s.setPart p { x with discardDue := false }
    let s2 := x.trims.foldl (fun t (k, _) => clearTrim p t k) s1
    let s3 := if x.plan.isSome then unloadPlan s2 p else s2
    erasePart (abandonLoad (setPair (s3.updPart p (fun y => { y with adapters := [], adaptersNew := [], trims := [] })) p Pair.unpaired) p) p

/-- PART RESET (R344). -/
def partResetOrder (discard : Bool) (p : Nat) (t : State) : State :=
  if (t.part p).state = .none then partResult t p 2
  else beginReset (partResult t p 0) p (if discard then 2 else 5) discard true

def execPartReset (src : Nat) (data : W32) (s : State) : Host.Outcome State Fault Refusal :=
  .next (partCmd src 3 false data (partResetOrder false) s)
def execPartResetDiscard (src : Nat) (data : W32) (s : State) : Host.Outcome State Fault Refusal :=
  .next (partCmd src 3 true data (partResetOrder true) s)

/-! ### Virtual functions (R331, R339, R344) -/

/-- VF Enable is set with NumVFs at least p + 1. -/
def vfOn (s : State) (p : Nat) : Bool := s.pf.vfEnable && decide (p < s.pf.numVfs)

/-- VF_LOST of a partition with a loaded plan (R347). -/
def vfLost (s : State) (p : Nat) : State := if (s.part p).plan.isSome then raise s pgPart 4 else s

/-- VF_FLR (R342). The FLR of a VF without a partition only resets its configuration space. -/
def execVfFlr (part : Nat) (s : State) : Host.Outcome State Fault Refusal :=
  if numParts ≤ part ∨ vfOn s part = false ∨ (s.part part).rst.isSome then .next s
  else if (s.part part).state = .none ∨ (s.part part).state = .creating then
    .next (s.updPart part (fun x => { x with bme := false, msixMask := [], msixPend := [] }))
  else .next (beginReset s part 1 false false)

/-- A virtual function goes away: its partition is reset as by an FLR (R344). -/
def loseVf (s : State) (p : Nat) : State :=
  let s1 := vfLost s p
  let x := s1.part p
  if x.state = .none ∨ x.state = .creating then
    s1.setPart p { x with bme := false, msixMask := [], msixPend := [] }
  else beginReset s1 p 3 false false

/-- PF_FLR (R344): every partition is reset, and the PF's configuration space and MSI-X. A running step of bring-up ends ABORTED
(R349, R362), and the PF's request to the security block is abandoned (R375). -/
def execPfFlr (s : State) : Host.Outcome State Fault Refusal :=
  let s1 := (List.range numParts).foldl (fun t p =>
    if vfOn s p then loseVf t p else beginReset t p 3 false false) s
  .next { secAbandon (bringAbort s1) with pf := Pf.reset }

/-- VF_ENABLE_CLEAR (R344): a write of VF Enable and NumVFs; each VF that it takes away resets its partition. -/
def execVfEnableClear (enable : Bool) (numVfs : Nat) (s : State) : Host.Outcome State Fault Refusal :=
  let s1 := { s with pf := { s.pf with vfEnable := enable, numVfs := min numVfs 32 } }
  let gone := (List.range numParts).filter (fun p => vfOn s p && !vfOn s1 p)
  .next (gone.foldl loseVf s1)

/-- Sends the messages that were held while a function could not (R339). -/
def sendHeld (s : State) (func : Nat) : State :=
  let pend := if func = 0 then s.pf.msixPend else (s.part (func - 1)).msixPend
  let vs := (pend.filter (fun (_, b) => b)).map (·.1)
  let s1 := if func = 0 then { s with pf := { s.pf with msixPend := [] } }
    else s.updPart (func - 1) (fun x => { x with msixPend := [] })
  vs.foldl (fun t v => sendMsg t (func, v)) s1

/-- BUS_MASTER_ENABLE (R331, R339): set, it lets waiting records, completions and messages go; cleared with a plan loaded, it raises
VF_LOST. -/
def execBusMasterEnable (func : Nat) (value : Bool) (s : State) : Host.Outcome State Fault Refusal :=
  if func = 0 then
    let s1 := { s with pf := { s.pf with bme := value } }
    .next (if value then sendHeld s1 0 else s1)
  else
    let p := func - 1
    let old := (s.part p).bme
    if numParts ≤ p ∨ vfOn s p = false then .next s
    else
      let s1 := s.updPart p (fun x => { x with bme := value })
      if value && !old then
        let s2 := flushRecords s1 p
        .next (sendHeld (flushCq (s2.part p).cqQueue.length s2 p) func)
      else if old && !value then .next (vfLost s1 p)
      else .next s1

/-- A vector is unmasked; a pending message is sent once (R339). -/
def unmaskVector (s : State) (func vector : Nat) : State :=
  if func = 0 then
    let s1 := { s with pf := { s.pf with msixMask := Tbl.set s.pf.msixMask vector false,
                                         msixPend := Tbl.set s.pf.msixPend vector false } }
    if Tbl.getD s.pf.msixPend vector false then sendMsg s1 (0, vector) else s1
  else
    let p := func - 1
    let x := s.part p
    if vfOn s p = false then s
    else
      let s1 := s.setPart p { x with msixMask := Tbl.set x.msixMask vector false, msixPend := Tbl.set x.msixPend vector false }
      if Tbl.getD x.msixPend vector false then sendMsg s1 (func, vector) else s1

/-- MSIX_UNMASK (R339). -/
def execMsixUnmask (func vector : Nat) (s : State) : Host.Outcome State Fault Refusal :=
  if 64 ≤ vector ∨ numParts < func then .next s else .next (unmaskVector s func vector)

/-- MODERATION_TIMER (R339): the timer of a vector with counted writes elapses. -/
def execModerationTimer (func vector : Nat) (s : State) : Host.Outcome State Fault Refusal :=
  let p := func - 1
  if func = 0 ∨ Tbl.getD (s.part p).modCount vector 0 = 0 then .next s
  else .next (sendMsg (s.updPart p (fun x => { x with modCount := Tbl.set x.modCount vector 0 })) (func, vector))

/-- INTAKE_RELEASE: `FUNC.RESET_STAT.RELEASE` (R344, R346). -/
def execIntakeRelease (src part : Nat) (data : W32) (s : State) : Host.Outcome State Fault Refusal :=
  .next (orderWrite s src (pgFunc part) 0x058 data (fun t => t.updPart part (fun x => { x with intakeHold := false })))

end Sys2Proof.Machine
end

