-- ==== Sys2Proof/Machine/Blotter.lean ====
section
/-! DEFINITION. The commit gate: what the blotter releases for each request of a step, in the order of R251 (R90, R202, R204, R219,
R228, R232, R235, R236, R238, R251). -/

namespace Sys2Proof.Machine

/-! ### KV positions and SPEC (R172, R204, R235) -/

/-- Puts a staged KV position in its page. A position holds the bytes staged for it and 0 elsewhere; `seen` tells the positions that
the step has begun. Only a page of the request itself takes it. -/
def commitKv (p slot page pos off : Nat) (data : List Byte) (draft : Bool) (acc : State × List (Nat × Nat)) :
    State × List (Nat × Nat) :=
  let s := acc.1
  match Tbl.get? (s.part p).pages page with
  | none => acc
  | some g =>
    if g.owner = .priv slot then
      let g1 := if acc.2.contains (page, pos) then g else clearPos g pos
      let g2 : KvPage := { g1 with
        pos := Tbl.set g1.pos pos (if draft then .draft else .committed), data := Mem.writeBytes g1.data (4096 * pos + off) data }
      (s.updPart p (fun x => { x with pages := Tbl.set x.pages page g2 }), (page, pos) :: acc.2)
    else acc

/-- Pages of a request that hold a token position, one for each layer that the device holds, with the position in the page. -/
def pagesAt (s : State) (p slot tp : Nat) : List (Nat × Nat) :=
  let ly := layersOf s p
  (List.range ly).filterMap (fun l =>
    (Tbl.get? (s.slot slot).kvMap (ly * (tp / 64) + l)).map (fun k => (k, tp % 64)))

/-- A SPEC order at one position of a page: a draft is promoted; a truncated position is cleared on every layer, whatever its state there
(R204). -/
def specPos (p slot : Nat) (promote : Bool) (s : State) (kp : Nat × Nat) : State :=
  match Tbl.get? (s.part p).pages kp.1 with
  | none => s
  | some g =>
    if g.owner = .priv slot ∧ (!promote ∨ Tbl.getD g.pos kp.2 .empty = .draft) then
      let g1 := if promote then { g with pos := Tbl.set g.pos kp.2 .committed } else clearPos g kp.2
      s.updPart p (fun x => { x with pages := Tbl.set x.pages kp.1 g1 })
    else s

def commitSpec (p slot : Nat) (promote truncate : List Nat) (acc : State × List (Nat × Nat)) : State × List (Nat × Nat) :=
  let s := acc.1
  let up := promote.flatMap (pagesAt s p slot)
  let cut := truncate.flatMap (pagesAt s p slot)
  (cut.foldl (specPos p slot false) (up.foldl (specPos p slot true) s), acc.2.filter (fun x => !cut.contains x))

/-- One item of the KV and SPEC groups, in the order of staging: stages before a SPEC, the SPEC, stages after it (R204). -/
def commitKvItem (p : Nat) (acc : State × List (Nat × Nat)) (it : Item) : State × List (Nat × Nat) :=
  match it with
  | .kv slot page pos off data draft => commitKv p slot page pos off data draft acc
  | .spec slot up cut => commitSpec p slot up cut acc
  | .record _ _ _ _ => acc
  | .state _ _ _ => acc

/-- One staged write of a state area (R206). -/
def commitStateItem (s : State) (it : Item) : State :=
  match it with
  | .state slot off data => s.setSlot slot { s.slot slot with stateArea := Mem.writeBytes (s.slot slot).stateArea off data }
  | .record _ _ _ _ => s
  | .kv _ _ _ _ _ _ => s
  | .spec _ _ _ => s

/-! ### Token records (R90, R202, R219, R228) -/

/-- Positions of the step before an entry's. -/
def entryOffset : List ListEntry → Nat → Nat
  | [], _ => 0
  | e :: es, slot => if e.slot = slot then 0 else e.positions + entryOffset es slot

/-- Refused requests of the step for a token position, over every device of the block: this one's, and what the others have sent with
their statuses (R90; log entry 100). -/
def refusedIn (j : Job) (pos : Nat) : Nat :=
  Tbl.getD j.refusedAt pos 0
    + ((j.statuses.filter (fun x => x.position != j.pos && multiDevice j)).map (fun x => Tbl.getD x.refused pos 0)).sum

/-- The DEGRADED count of record `k` of an entry (R90): that of its own position; those of a prompt chunk follow its last one. -/
def degradedOf (j : Job) (e : ListEntry) (k : Nat) : Nat :=
  let n := e.positions - 1
  refusedIn j (entryOffset j.reqList e.slot + (if e.prefill then n else min k n))

/-- The end kind that a record commits with: the length limits end the request (R228). -/
def endKindOf (s : State) (p : Nat) (x : Slot) (staged : Nat) : Nat :=
  if staged ≠ 0 then staged
  else if x.desc.maxTokens ≤ x.nextSeq + 1 ∨ maxPosOf s p ≤ recordPos x x.nextSeq + 1 then 2
  else 0

/-- Commits record `k` of a request; nothing follows the record that ends it. -/
def commitOne (p : Nat) (j : Job) (e : ListEntry) (s : State) (kr : Nat × Nat × Nat × Nat) : State :=
  let (k, token, prob, kind) := kr
  let x := s.slot e.slot
  if x.state = .free ∨ x.part ≠ p then s
  else
    let kd := endKindOf s p x kind
    let s1 := commitRecord s p e.slot token prob (degradedOf j e k) kd s.stroke.number true
    if kd = 0 then s1 else endRequest s1 p e.slot kd s.stroke.number

def recordsOf (items : List Item) (slot : Nat) : List (Nat × Nat × Nat × Nat) :=
  let rs := items.filterMap (fun it => match it with
    | .record n token prob kind => if n = slot then some (token, prob, kind) else none
    | _ => none)
  rs.zipIdx.map (fun (r, k) => (k, r))

/-! ### Handles (R238, R240, R322) -/

/-- HANDLE_READY (R223, R238). -/
def handleReady (s : State) (h : Nat) : State :=
  let x := s.handle h
  complete s x.part false { tag := x.hostTag, slot := h, gen := x.gen, kind := 8, code := 0, value := handleValue s h,
                            stroke := s.stroke.number }

/-- The pages of a registration are sealed and the slot is freed. The entry is written by the entry device whose ring held the
descriptor; in a pair, once both have sealed (R322). -/
def sealHandle (s : State) (p n : Nat) : State :=
  let x := s.slot n
  match x.handle with
  | none => s
  | some h =>
    let keys := privateKeys s p n
    let s1 := keys.foldl (fun t (_, k) => t.updPart p (fun y =>
      { y with pages := Tbl.update y.pages k (fun g => { g with owner := .sealed h }) })) s
    let paired := (s.part p).pair.state == .paired
    let hd := s.handle h
    let write := !hd.quiet && !notEntry s p
    let s2 := s1.setHandle h { hd with state := .sealed, users := 0, pages := keys, owed := write && paired && !hd.peerSealed }
    let s3 := freeSlot (s2.setSlot n { x with handle := none }) p n 0
    let s4 := s3.setSlot n { s3.slot n with lastEndGen := x.lastEndGen, lastEndSeq := x.lastEndSeq }
    if write && (!paired || hd.peerSealed) then handleReady s4 h else s4

/-- HANDLE_READY of a handle that waited for the buddy; a pair that has been left waits no longer (R322). -/
def payOwed (s : State) (p h : Nat) : State :=
  let x := s.handle h
  if x.owed && (x.peerSealed || (s.part p).pair.state != .paired) then handleReady (s.setHandle h { x with owed := false }) h
  else s

/-! ### State of the request after its step (R228, R232) -/

/-- Next position of a request that goes on. -/
def nextPos (x : Slot) : Nat := x.prefixLen + x.promptDone + (x.nextSeq - 1)

/-- A request after its step has committed (R228): the prompt advances, a digest ends in PAUSED_DIGEST, a prefix is sealed. -/
def advance (s : State) (p : Nat) (e : ListEntry) : State :=
  let n := e.slot
  let x := s.slot n
  if x.state = .free ∨ x.part ≠ p then s
  else if x.state = .digesting then
    let s1 := freeSlotPages s p n
    let s2 := s1.setSlot n { s1.slot n with state := .pausedDigest, position := nextPos x }
    if notEntry s p then s2 else complete s2 p false (slotEntry s2 n 6 0 x.desc.hostTag s.stroke.number)
  else
    let done := if e.prefill then min x.desc.promptLen (x.promptDone + e.positions) else x.promptDone
    let y : Slot := { x with promptDone := done }
    let y1 : Slot := { y with position := nextPos y }
    if e.prefill = true ∧ x.desc.promptLen ≤ done then
      if x.state = .building then sealHandle (s.setSlot n y1) p n
      else s.setSlot n { y1 with state := .decode }
    else s.setSlot n y1

/-- Remembers the last stroke at which something of a request was committed, and the last at which that was mirrored: its record goes to the
buddy where the request has a standby scroll (R264, R317). -/
def noteCommit (s : State) (p n : Nat) : State :=
  let g := (s.slot n).gen
  let mine (c : CommitRec) : Bool := c.part == p && c.slot == n && c.gen == g
  let mirrored := if (s.part p).pair.state = .paired ∧ (s.slot n).desc.standbyAddr ≠ 0 then some s.stroke.number
    else (s.integ.commits.find? mine).bind (·.mirrored)
  { s with integ := { s.integ with
      commits := { part := p, slot := n, gen := g, stroke := s.stroke.number, mirrored := mirrored }
        :: s.integ.commits.filter (fun c => !mine c) } }

/-! ### The gate (R229, R251) -/

/-- A slot's items may be released: its request is the partition's and no cancel point precedes the boundary. -/
def mayCommit (s : State) (p n : Nat) : Bool :=
  let x := s.slot n
  x.part == p && x.state != .free && x.cancel.isNone

/-- Releases the items of one request of the step (R251). -/
def releaseOne (p : Nat) (j : Job) (items : List Item) (s : State) (e : ListEntry) : State :=
  if !mayCommit s p e.slot then s
  else
    let mine := items.filter (fun it => itemSlot it == e.slot)
    let s1 := (mine.foldl (commitKvItem p) (s, [])).1
    let s2 := mine.foldl commitStateItem s1
    let s3 := if mine.isEmpty then s2 else noteCommit s2 p e.slot
    advance ((recordsOf mine e.slot).foldl (commitOne p j e) s3) p e

/-- Releases the items of the listed requests that `keep` names. -/
def releaseItems (s : State) (p : Nat) (j : Job) (items : List Item) (keep : Nat → Bool) : State :=
  (j.reqList.filter (fun e => keep e.slot)).foldl (releaseOne p j items) s

end Sys2Proof.Machine
end

