-- ==== Sys2Proof/Machine/Steps.lean ====
section
/-! DEFINITION. A job's step: its list, its readiness, its status and decision, how it begins, stretches and is counted (R19, R82, R83,
R87, R89 to R93, R97, R100, R130, R141, R201, R249, R252, R316, R318). -/

namespace Sys2Proof.Machine

/-! ### The step and its suspect set -/

/-- Slots of the step's request list. -/
def listSlots (j : Job) : List Nat := j.reqList.map (·.slot)

/-- Slots of the step that a suspect set names (R249). -/
def setSlots (s : State) (j : Job) (q : SuspectSet) : List Nat :=
  match q with
  | .all => listSlots j
  | .slot n => (listSlots j).filter (· == n)
  | .slots ns => (listSlots j).filter (fun n => ns.contains n)
  | .handle h => (listSlots j).filter (fun n => (s.slot n).handle == some h)

/-- The job's step is suspect here for every request (R146, R249). -/
def holdsAll (j : Job) : Bool := j.fault.isSome || j.suspects.any (fun u => u.reqs == .all)

/-- Slots held suspect by this device's own checks. -/
def holdsOf (s : State) (j : Job) : List Nat :=
  if holdsAll j then listSlots j else (j.suspects.flatMap (fun u => setSlots s j u.reqs)).dedup

/-- The step number that a status and a decision carry: that of a held step while it is replayed. -/
def curStep (j : Job) : Nat := match j.hold with
  | some h => h.stepNo
  | none => j.stepNo

/-- The core has no more work in the step: WSTRK or HALT executed (R87). -/
def coreDone (x : Scribe) : Bool := x.mode == .ready || x.mode == .halted

/-- A program fault or a fence has cut the step short on the core: it will not reach WSTRK, and the step is suspect (R119, R146). A logical
core that nothing runs is not cut, it never begins. -/
def coreCut (s : State) (l : Nat) : Bool :=
  (s.scribe l).mode == .faulted || ((s.scribe l).mode == .stopped && (s.remapOf l).mode != .unused)

/-- Cores of the plan below NCORE, as logical cores. -/
def planCores (pl : Plan) : List Nat := pl.lcores.take pl.ncore

def pairedNow (s : State) (p : Nat) : Bool := (s.part p).pair.state == .paired

/-- The buddy has acknowledged the mirror data of the step; a step that staged nothing for a mirrored request has none (R317, R318). -/
def mirrorAcked (s : State) (p : Nat) (j : Job) : Bool :=
  !pairedNow s p || j.inserting || (s.part p).pair.sentAcked || j.items.all (fun it => match it with
    | .record n _ _ _ => (s.slot n).desc.standbyAddr == 0
    | .kv n _ _ _ _ _ => (s.slot n).desc.standbyAddr == 0
    | .state n _ _ => (s.slot n).desc.standbyAddr == 0
    | .spec n _ _ => (s.slot n).desc.standbyAddr == 0)

/-- The buddy computes the replay of a held step: the pair was PAIRED at B0 and still is (R259, R260). -/
def buddyComputes (s : State) (p : Nat) (h : Hold) : Bool := h.paired && pairedNow s p

/-- A replay in a pair also waits for what the buddy's inserted step gives back (R259). -/
def buddyAnswered (s : State) (p : Nat) (j : Job) : Bool := match j.hold with
  | some h => !(j.replaying && buddyComputes s p h && !h.slots.isEmpty) || j.returned.isSome
  | none => true

/-- The cores have finished with the step. DESIGN CHOICE (log entry 101): a step that has been cut short on a core, which R254 recovers from
the boundary at which it would have committed, is reported READY with its holds; otherwise it would have no such boundary. -/
def coresDone (s : State) (pl : Plan) : Bool :=
  (planCores pl).all (fun l => coreDone (s.scribe l)) || (planCores pl).any (coreCut s)

/-- READY of this device (R87, R318). -/
def deviceReady (s : State) (p : Nat) : Bool :=
  match (s.part p).plan, s.job p with
  | some pl, some j =>
    j.inStep && j.listFixed && coresDone s pl && mirrorAcked s p j && buddyAnswered s p j
  | _, _ => false

/-! ### Edition switches (R293) -/

/-- An occupied slot of the partition names a tenant adapter. -/
def adapterNamed (s : State) (p : Nat) : Bool := (slotsOf s p).any (fun n => namesAdapter (s.slot n).desc)

/-- NEXT can be read whole (R295). -/
def nextReadable (x : Part) : Bool := match x.nextImage with
  | some im => im.lost.isEmpty
  | none => false

/-- The stroke number that `STROKE.EPOCH` gives for the next epoch mark (R79). -/
def epochNumber (s : State) : Nat := (s.pair pgStroke 0x060 0x064 % 2 ^ 48) * 65536 % 2 ^ 64

/-- The partition can switch to the rolling edition at the boundary that follows, or at one that a reload makes of it (R79). -/
def canSwitch (s : State) (p : Nat) : Bool :=
  match (s.part p).change with
  | .rollPending at_ =>
    (decide (at_ ≤ s.stroke.number + 1) || (s.stroke.resync && decide (at_ ≤ epochNumber s))) && !adapterNamed s p && nextReadable (s.part p)
  | .none | .offline | .rolling => false

/-! ### What a replay comes to on this device (R146, R147, R254 to R256, R260) -/

/-- The end of a replay step: another replay, the relay step of the ligature classes, a program fault, or release. -/
inductive ReplayEnd where
  | again | relay | progFault | release
  deriving DecidableEq, Repr

/-- Other hardware on this device has computed the implicated unit (R255): its prover or substitute, or the relay step. A scratch location
is written anew by the replay; of another HBM location the second read must have been correct. -/
def otherThere (h : Hold) (u : FaultUnit) : Bool :=
  match u with
  | .array _ _ => h.provers.any (fun x => x.1 == u)
  | .core _ => h.provers.any (fun x => x.1 == u)
  | .ligature _ _ _ => true
  | .hbmScratch _ _ => true
  | .hbmPage _ _ => !h.sameFails.contains u
  | .hbmState _ _ => !h.sameFails.contains u
  | .hbmImage _ => !h.sameFails.contains u
  | .router _ => true
  | .fence _ => true
  | .peer => true

/-- The other-hardware computation has passed: in a pair the buddy's (R254, R259). Where Q has committed, nothing is needed of it. -/
def otherPassed (s : State) (p : Nat) (j : Job) (h : Hold) : Bool :=
  if h.slots.isEmpty then true
  else if buddyComputes s p h then (match j.returned with
    | some (ok, _) => ok
    | none => false)
  else !h.otherFail && h.units.all (otherThere h)

/-- Faults that are permanent whatever the replay finds (R255 to R257). -/
def alwaysPermanent (u : FaultUnit) : Bool :=
  match u with
  | .router _ => true
  | .fence _ => true
  | .peer => true
  | .array _ _ => false
  | .core _ => false
  | .ligature _ _ _ => false
  | .hbmScratch _ _ => false
  | .hbmPage _ _ => false
  | .hbmState _ _ => false
  | .hbmImage _ => false

def replayEnd (s : State) (p : Nat) (j : Job) (h : Hold) : ReplayEnd :=
  if h.faultAgain.isSome then .progFault
  else if j.fault.isSome then .again
  else if h.kind = .ligatureSame ∧ buddyComputes s p h = false then .relay
  else if otherPassed s p j h then .release
  else .again

/-- This device cannot release Q at the boundary that ends the replay. -/
def replayBlocks (s : State) (p : Nat) (j : Job) : Bool := match j.hold with
  | some h => (match replayEnd s p j h with
      | .release => false
      | .again => true
      | .relay => true
      | .progFault => true)
  | none => false

/-! ### Status and decision (R19, R87, R316, R320) -/

/-- The status of this device at the status point. -/
def ownStatus (s : State) (p : Nat) (j : Job) : Status :=
  let st := (s.part p).pair.state
  { position := if multiDevice j then j.pos else 0, ready := deviceReady s p, stepNo := curStep j,
    holds := if j.replaying then (match j.hold with
        | some h => if replayBlocks s p j then h.slots else []
        | none => []) else holdsOf s j,
    holdAll := if j.replaying then replayBlocks s p j else holdsAll j,
    lost := st == .lost && (s.part p).pair.adoptDue, paired := st == .paired, canSwitch := canSwitch s p, refused := j.refusedAt }

/-- The status of a device whose job has not begun its first step: it says that the job is loaded (R135; log entry 98). -/
def waitingStatus (s : State) (p : Nat) (j : Job) : Status :=
  { position := j.pos, ready := false, stepNo := 0, holds := [], holdAll := false, lost := false,
    paired := (s.part p).pair.state == .paired, canSwitch := false, refused := [] }

/-- Replaces the status of a device. -/
def putStatus (ss : List Status) (x : Status) : List Status := ss.filter (fun y => y.position != x.position) ++ [x]

/-- The decision of the entry device: COMMIT if every device of the block has reported READY for the step (R87). -/
def decide87 (j : Job) : Decision :=
  let ss := j.statuses.filter (fun x => x.stepNo == curStep j)
  { commit := (List.range j.block.length).all (fun k => ss.any (fun x => x.position == k && x.ready)),
    stepNo := curStep j, holds := (ss.flatMap (fun x => x.holds)).dedup, holdAll := ss.any (fun x => x.holdAll),
    adopt := ss.any (fun x => x.lost), switch_ := ss.all (fun x => x.canSwitch), paired := ss.all (fun x => x.paired),
    refused := ss.any (fun x => !x.refused.isEmpty) }

/-- This device decides for the job: it is the entry device, or the only one. -/
def decides (s : State) (p : Nat) (j : Job) : Bool := !multiDevice j || !notEntry s p

/-! ### Beginning a step (R89, R93, R130, R141, R252) -/

/-- A core at the start of a step: its state is checkpointed, or restored from the checkpoint; a replay uses the grant record of the step,
which is kept until it has committed (R252). A logical core that nothing runs stays stopped (log entry 95). -/
def freshScribe (s : State) (p : Nat) (pl : Plan) (n : Nat) (again : Bool) (replay : Bool) (lk : Nat × Nat) : Scribe :=
  let x := s.scribe lk.1
  let arch := if again then x.ckpt else x.arch
  let idle := decide (pl.ncore ≤ lk.2)
  let y : Scribe := { x with arch := arch, ckpt := arch, pc := 0, loops := [], txs := [], sends := [], recvs := [], arrived := [] }
  let y1 : Scribe := { y with receipts := [], flits := [], digest := BitVec.allOnes 64, recorded := none, atBar := false }
  let y2 : Scribe := { y1 with
    traced := x.traced && again && !replay, trace := [], outDig := BitVec.allOnes 64
    mode := if idle then .ready else if (s.remapOf lk.1).mode = .unused then .stopped else if arch.halted then .halted
            else if again then .running else .idle
    special := if again then x.special else specialRegs s p pl lk.2 n }
  { y2 with
    grants := [], broadLog := if replay then x.broadLog else [], broadReplay := if replay then x.broadLog else [], wstrkAt := none }

/-- The check logs of the arrays of logical cores are cleared (R163). -/
def clearLogs (s : State) (ls : List Nat) : Tbl ArrayUnit :=
  let cs := ls.map (fun l => (s.remapOf l).pcore)
  Tbl.mapVal (fun k a => if cs.contains (k / 32) then { a with log := CheckLog.clear } else a) s.arrays

/-- Every core of the plan begins. Ligature flits of the earlier step are forgotten (R112), and the check logs are cleared (R163). -/
def beginScribes (s : State) (p : Nat) (pl : Plan) (n : Nat) (again replay : Bool) : State :=
  let s1 := pl.lcores.zipIdx.foldl (fun t lk => t.setScribe lk.1 (freshScribe t p pl n again replay lk)) s
  { s1 with
    slotsLig := s1.slotsLig.map (fun (x : Nat × List LigFlit) => (x.1, x.2.filter (fun f => !pl.lcores.contains f.lcore)))
    arrays := clearLogs s1 pl.lcores }

/-- What a job forgets at the start of a step, a restart or a replay. -/
def Job.cleared (j : Job) : Job :=
  let y : Job := { j with inStep := true, span := 0, items := [], suspects := [], fault := none, decision := none, statuses := [] }
  { y with pageRecs := [], payloads := [], payloadsLeft := [], refusedAt := [], barEpoch := 0, broadReq := 0, broadRefused := 0, statusSent := none }

def clearAcks (s : State) (p : Nat) : State :=
  s.updPart p (fun x => { x with pair := { x.pair with sentAcked := false, decisionAcked := false } })

/-- `STROKE.PPOLp.POLICY` is PARTIAL. -/
def policyPartial (s : State) (p : Nat) : Bool := s.field pgStroke (0x100 + 0x20 * p) 0 2 == 1

/-- A new step: its list is fixed in the intake window. -/
def beginStep (s : State) (p : Nat) (pl : Plan) (j : Job) : State :=
  let y : Job := { j.cleared with
    openStroke := s.stroke.number, dueAt := s.stroke.base + statusAt s, total := 0, stretched := false, listFixed := false, reqList := [] }
  let y1 : Job := { y with partialPol := policyPartial s p || j.auto, refuseAll := false, abandoned := false, replaying := false }
  beginScribes (clearAcks (s.setJob p { y1 with returned := none }) p) p pl (s.stroke.number % 2 ^ 32) false false

/-- An abandoned step restarts from the same committed state, with its list and every broad request refused (R93). It is still the step
that its boundary opened: its special registers, its span and its slack go on from there (R97, R100, R141). -/
def restartStep (s : State) (p : Nat) (pl : Plan) (j : Job) : State :=
  let y : Job := { j.cleared with refuseAll := true, replaying := false }
  beginScribes (clearAcks (s.setJob p y) p) p pl 0 true false

/-- What an implicated core sends and stages in a replay is recorded, to be compared with its substitute's (R255). -/
def traceUnits (s : State) (p : Nat) (pl : Plan) : State :=
  pl.lcores.foldl (fun t l =>
    if coreReplayed t p (runCore t l) then t.setScribe l { t.scribe l with traced := true } else t) s

/-- A replay step: checkpoints, list, special registers and grant record of the held step (R254). What other devices send it comes anew,
from their replay steps; the payloads of the held step stay recorded. -/
def beginReplay (s : State) (p : Nat) (pl : Plan) (j : Job) : State :=
  traceUnits (beginScribes (clearAcks (s.setJob p { j.cleared with
    replaying := true, listFixed := true, payloads := j.payloads, payloadsLeft := [] }) p) p pl 0 true true) p pl

/-! ### The partner's replay, inserted (R259) -/

/-- An entry of a request list that another device has sent, for slot `n` of this one. -/
def entryOf (n : Nat) (e : ListMsg) : ListEntry :=
  { slot := n, prefill := e.prefill, speculative := e.speculative, resumed := e.resumed, ctrl := e.ctrl, positions := e.positions,
    position := e.position, adapter := e.adapter, priority := e.priority, delivered := e.delivered, seed := e.seed }

/-- State of a request that an entry lists. -/
def listedState (e : ListMsg) : SlotState :=
  if e.ctrl = 1 then .digesting else if e.ctrl = 4 then .building else if e.prefill then .prefill else .decode

/-- The mirror of a request of the partner's step takes a free slot, with the pages that its positions need. One that is not mirrored, or
finds no slot, is left out. -/
def addGuest (p : Nat) (acc : State × List (Nat × Nat × Nat) × List ListEntry) (e : ListMsg) :
    State × List (Nat × Nat × Nat) × List ListEntry :=
  let s := acc.1
  match Tbl.get? (s.part p).pair.mirror e.slot, freeSlotList s p with
  | some m, n0 :: ns =>
    let n := pickFrom s 0 (n0 :: ns)
    let s1 := adoptSlot s p n m
    let s2 := s1.setSlot n { s1.slot n with
      state := listedState e, resumeCtrl := if e.ctrl = 2 ∨ e.ctrl = 3 then e.ctrl else 0 }
    let s3 := (takePages s2 p n e.position e.positions).getD s2
    let s4 := listOne p [] s3 ⟨n, 0, e.prefill, e.position, e.positions⟩
    (s4, acc.2.1 ++ [(e.slot, n, m.pages.length)], acc.2.2 ++ [entryOf n e])
  | _, _ => acc

/-- The grants of the partner's step, for the cores of the same plan index. -/
def giveGrants (pl : Plan) (grants : List (Nat × List Bool)) (s : State) : State :=
  pl.lcores.zipIdx.foldl (fun t (l, k) => t.setScribe l { t.scribe l with
    broadReplay := (grants.find? (fun g => g.1 == k)).elim [] (·.2) }) s

/-- The special registers of the partner's step (R141, R259). -/
def giveSpecials (pl : Plan) (sp : List (Nat × List W32)) (s : State) : State :=
  pl.lcores.zipIdx.foldl (fun t (l, k) => match sp.find? (fun x => x.1 == k) with
    | some x => t.setScribe l { t.scribe l with special := x.2 }
    | none => t) s

/-- The inserted step begins: the partner's list, special registers, grants and payloads, on its mirrored state. -/
def beginInserted (s : State) (p : Nat) (pl : Plan) (j : Job) (ins : Insert) : State :=
  let g := ins.list.foldl (addGuest p) (s, [], [])
  let y : Job := { j.cleared with listFixed := true, reqList := g.2.2 }
  let y1 : Job := { y with inserting := true, inserted := none, guests := g.2.1, payloadsLeft := ins.payloads, replaying := false }
  let s1 := beginScribes (clearAcks (g.1.setJob p y1) p) p pl 0 false false
  startScribes (giveSpecials pl ins.special (giveGrants pl ins.grants s1)) p

/-- The special registers of a step that begins at a boundary are read once what takes effect at it has: an edition, a reload of the stroke
number (R79, R141, R291). -/
def refreshSpecial (s : State) (p : Nat) : State :=
  match (s.part p).plan, s.job p with
  | some pl, some j =>
    if j.inStep && !j.replaying && !j.inserting && j.openStroke == s.stroke.number then
      pl.lcores.zipIdx.foldl (fun t (l, k) =>
        t.setScribe l { t.scribe l with special := specialRegs t p pl k (t.stroke.number % 2 ^ 32) }) s
    else s
  | _, _ => s

/-! ### Holds of a whole job (R79, R82, R343) -/

/-- The job may not go on beyond its step while the device runs free (R82). DESIGN CHOICE (log entry 98): a job of one device counts as one
in a buddy pair only while its pair is PAIRED; in the other states of R319 it goes on. -/
def freeRunBars (s : State) (p : Nat) (j : Job) : Bool := s.stroke.state == .freeRun && (multiDevice j || pairedNow s p)

/-- Nothing but a hold of R79 or R82 keeps the job from its next step. The first step of a job of several devices waits until all of them
have loaded it (R135). -/
def mayGoOn (s : State) (p : Nat) (j : Job) : Bool :=
  j.started && (!multiDevice j || j.joined) && !j.inStep && !(j.halted && ((j.haltCause == 1 && !j.resumeReq) || j.haltCause == 4)) && !j.broken && !j.unloading && !j.peersDue
  && (s.part p).rst.isNone

/-- FREE_RUN hold begins (R82, R100). -/
def beginFreeHold (s : State) (p : Nat) (j : Job) : State :=
  raiseAll (s.setJob p { j with freeRunHold := true, halted := true, haltCause := 2 }) [(pgStroke, 2 ^ 11), (pgFunc p, 16)]

/-- The job begins its next step, restart or replay, or is held (R79, R82, R93, R254). -/
def goOn (s : State) (p : Nat) (pl : Plan) (j0 : Job) : State :=
  let j : Job := { j0 with halted := false, haltCause := 0, freeRunHold := false, resumeReq := false }
  match j.hold with
  | some h => if 4 ≤ h.age then s else beginReplay s p pl j
  | none =>
    match j.inserted, pairedNow s p with
    | some ins, true => if j.abandoned then restartStep s p pl j else beginInserted s p pl j ins
    | some _, false =>
      let j1 : Job := { j with inserted := none }
      if j.abandoned then restartStep s p pl j1 else beginStep s p pl j1
    | none, _ => if j.abandoned then restartStep s p pl j else beginStep s p pl j

def startNext (s : State) (p : Nat) : State :=
  match (s.part p).plan, s.job p with
  | some pl, some j =>
    if !mayGoOn s p j then s
    else if j.numHold then s.setJob p { j with halted := true, haltCause := 3 }
    else if freeRunBars s p j && j.hold.isNone then (if j.freeRunHold then s else beginFreeHold s p j)
    else if j.freeRunHold && s.stroke.state != .locked && (multiDevice j || pairedNow s p) then s
    else goOn s p pl j
  | _, _ => s

/-! ### Time -/

/-- Reference periods pass until the count stands at `c` (R77, R82, R401). -/
def advanceTo (s : State) (c : Nat) : State :=
  let x := s.stroke
  let d := c - x.count
  { s with stroke := { x with
      count := max c x.count, holdTicks := if x.state = .holdover then x.holdTicks + d else x.holdTicks,
      refTicks := if s.clock.lock.testBit 21 then (x.refTicks + d) % 2 ^ 22 else x.refTicks } }

/-! ### Counting (R91, R92, R97, R100) -/

/-- Slack of a core in the step: against the status point at which the step was first due (R97). -/
def slackIn (s : State) (j : Job) (l : Nat) : Option Int :=
  (s.scribe l).wstrkAt.map (fun w => max (-32767) (min 32767 ((j.dueAt : Int) - w)))

/-- The least slack with its logical core; cores are taken in ascending order. -/
def leastSlack : List (Nat × Int) → Option (Nat × Int)
  | [] => none
  | x :: xs => match leastSlack xs with
    | some y => if y.2 < x.2 then some y else some x
    | none => some x

/-- What the registers report of the step that ends at this boundary; `refused` says that a device of the block refused a request. -/
def measureOf (s : State) (pl : Plan) (j : Job) (refused : Bool) : Measure :=
  let sl := (planCores pl).zipIdx.filterMap (fun (l, k) => (slackIn s j l).map (fun v => (l, k, v)))
  let least := leastSlack (sl.map (fun (l, _, v) => (l, v)))
  { span := j.total, clean := !refused && j.broadRefused == 0, req := sat 16 j.broadReq, refused := sat 16 j.broadRefused,
    slackOf := if sl.isEmpty then j.slackOf else sl.map (fun (_, k, v) => (k, v)),
    minSlack := (least.map (·.2)).getD j.minSlack, worst := (least.map (·.1)).getD j.worstLcore }

/-- A step counts as committed. -/
def Job.counted (j : Job) (m : Measure) : Job :=
  let y : Job := { j with stepNo := (j.stepNo + 1) % 2 ^ 64, lastSpan := sat 4 m.span, lastBroadReq := m.req,
                          lastBroadRefused := m.refused }
  let y1 : Job := { y with slackOf := m.slackOf, minSlack := m.minSlack, worstLcore := m.worst, abandoned := false }
  { y1 with refuseAll := false, strRun := if j.stretched then j.strRun else 0,
            cleanRun := if !j.stretched && m.clean then j.cleanRun + 1 else 0 }

/-- A step is stretched (R91): counted once for the step, restarted or not, the event for each boundary. -/
def stretch (s : State) (p : Nat) (j : Job) : State :=
  let y : Job := { j with stretched := true, decision := none, statuses := [] }
  raise (s.setJob p { y with strRun := if j.stretched then j.strRun else sat 8 (j.strRun + 1),
                             strCnt := if j.stretched then j.strCnt else sat 20 (j.strCnt + 1) }) pgStroke 7

end Sys2Proof.Machine
end

