-- ==== Sys2Proof/Machine/Recovery.lean ====
section
/-! DEFINITION. Suspect steps: the hold at B0, provers, replays and what they come to, permanent faults, program faults and the commit of
a step (R119, R146 to R148, R249, R251, R254 to R260). -/

namespace Sys2Proof.Machine

/-! ### Provers and substitutes (R255) -/

/-- Physical cores of the idle plan indices of a partition (R131), but for those whose plan is hosted or run by no core: a prover needs
no array of its own. -/
def idleCores (s : State) (p : Nat) : List Nat := match (s.part p).plan with
  | some pl => ((pl.lcores.drop pl.ncore).filter (fun l => (s.remapOf l).mode == .arrays || (s.remapOf l).mode == .fairCopy)).map
      (fun l => (s.remapOf l).pcore)
  | none => []

/-- ACTIVE cores that run the plan below NCORE on their own arrays, with their slack in the last committed step. -/
def activeSlack (s : State) (p : Nat) : List (Nat × Int) := match (s.part p).plan with
  | some pl => (planCores pl).zipIdx.filterMap (fun (l, k) =>
      if (s.remapOf l).mode = .arrays ∧ (s.pcore (s.remapOf l).pcore).kind = .active then
        some ((s.remapOf l).pcore, match s.job p with
          | some j => Tbl.getD j.slackOf k 0
          | none => 0)
      else none)
  | none => []

/-- The core of greatest slack, then of lowest number. -/
def mostSlack : List (Nat × Int) → Option (Nat × Int)
  | [] => none
  | x :: xs => match mostSlack xs with
    | some y => if x.2 < y.2 ∨ (x.2 = y.2 ∧ y.1 < x.1) then some y else some x
    | none => some x

/-- A free SPARE core by R117, but for those of `bar`. -/
def spareProver (s : State) (c : Nat) (bar : List Nat) : Option Nat :=
  chooseSpareFrom ((coresIn s .spare).filter (fun x =>
    !bar.contains x && !s.integ.provers.any (fun y => y.1 == x) && !holdsShadow s x)) c

/-- The prover or substitute for a unit of physical core `c`, but for the cores of `bar` (R255). -/
def proverFor (s : State) (p c : Nat) (bar : List Nat) : Option Nat :=
  match (idleCores s p).find? (fun x => !bar.contains x) with
  | some x => some x
  | none =>
    match spareProver s c bar with
    | some x => some x
    | none => (mostSlack ((activeSlack s p).filter (fun x => !bar.contains x.1))).map (·.1)

/-- The unit is computed by a prover or substitute on this device. -/
def needsProver (u : FaultUnit) : Bool := match u with
  | .array _ _ => true
  | .core _ => true
  | _ => false

/-- Gives one unit of a held step its prover or substitute, one that has not computed it before. -/
def giveOne (p : Nat) (acc : State × Hold) (u : FaultUnit) : State × Hold :=
  let (s, h) := acc
  if needsProver u then
    match proverFor s p u.pcore (u.pcore :: (h.tried ++ h.provers.map (·.2))) with
    | some c =>
      let s1 := if (s.pcore c).kind = .spare then
          { s with integ := { s.integ with provers := s.integ.provers ++ [(c, holdKey p)] } }
        else s
      (s1, { h with provers := h.provers ++ [(u, c)] })
    | none => acc
  else acc

/-- Chooses the provers and substitutes of the next replay of a held step, one for each unit that its checks implicate; in a pair the buddy
computes (R255, R259, R260). -/
def giveProvers (s : State) (p : Nat) (h : Hold) : State × Hold :=
  let h1 : Hold := { h with tried := h.tried ++ h.provers.map (·.2), provers := [] }
  if buddyComputes s p h1 then (releaseProver s p, h1) else h1.units.foldl (giveOne p) (releaseProver s p, h1)

/-! ### The hold at B0 (R254) -/

/-- The held step of a job: Q with the items that it has staged, and the units that the failing checks implicate. -/
def holdOf (s : State) (p : Nat) (j : Job) (q : List Nat) (m : Option Measure) : Hold :=
  { age := 0, paired := pairedNow s p, stepNo := j.stepNo, slots := q, items := j.items.filter (fun it => q.contains (itemSlot it)),
    suspect := j.suspects.head?, fault := j.fault,
    kind := if j.suspects.any (fun x => x.unit.isLigature) then .ligatureSame else .normal,
    sameFails := [], otherFail := false, faultAgain := none, measure := m, units := (j.suspects.map (·.unit)).dedup, provers := [],
    tried := [], later := [] }

/-- The items of Q stay held; the job's replay follows. -/
def openHold (s : State) (p : Nat) (pl : Plan) (j : Job) (q : List Nat) (refused : Bool) : State :=
  let m := measureOf s pl j refused
  let now := j.fault.isNone && (j.reqList.any (fun e => !q.contains e.slot) || j.reqList.isEmpty)
  let g := giveProvers s p (holdOf s p j q (if now then none else some m))
  let y : Job := if now then j.counted m else j
  let s1 := { g.1 with integ := { g.1.integ with lastStroke := s.stroke.number } }
  s1.setJob p { y with
    inStep := false, hold := some g.2, items := [],
    ordersDue := true, decision := none, statuses := [], returned := none }

/-! ### Permanent faults (R257) -/

/-- An array is out of service for good. -/
def breakArray (s : State) (k : Nat) : State :=
  permanentArray (s.setArray k { s.array k with broken := true, fenced := true }) k

/-- PAGE_RETIRED: counted for the device and for the stack (R257, R274, R426). -/
def countRetired (s : State) (k : Nat) : State :=
  let x := s.stack k
  let s1 := { s with integ := { s.integ with pagesRetired := sat 16 (s.integ.pagesRetired + 1) } }
  raiseAll (s1.setStack k { x with retired := sat 16 (x.retired + 1) }) [(pgInteg, 2 ^ 10), (pgHbm k, 2 ^ 5)]

/-- The 4 KiB page that holds the last error that a stack reported leaves its pool for good (R257, R426). -/
def retireAt (s : State) (k : Nat) : State :=
  let x := s.stack k
  countRetired (s.setStack k { x with gone := (x.errAddr / 4096 * 4096 :: x.gone).dedup }) k

/-- A KV page is retired; its content lies in another page, which takes its place wherever it is named (R255, R257). -/
def retirePage (s : State) (p k : Nat) : State :=
  match Tbl.get? (s.part p).pages k with
  | none => s
  | some g =>
    let x := s.part p
    let n := scanPage x (x.pages.length + 1) (s.freeNat (max 1 x.pagesTotal))
    let dead : KvPage := { g with owner := .retired, pos := [], data := [] }
    let s1 := (s.setPart p { x with pages := Tbl.set (Tbl.set x.pages n g) k dead,
                                    pagesRetired := x.pagesRetired + 1 }).nextFree
    let swap (m : Tbl Nat) : Tbl Nat := Tbl.mapVal (fun _ v => if v = k then n else v) m
    let s2 := (slotsOf s1 p).foldl (fun t sl =>
      let y := t.slot sl
      let keys := (y.kvMap.filter (fun (_, v) => v == k)).map (·.1)
      keys.foldl (fun u key => setMapWord u p sl key n) (t.setSlot sl { y with kvMap := swap y.kvMap })) s1
    (handlesOf s2 p).foldl (fun t h => t.setHandle h { t.handle h with pages := swap (t.handle h).pages }) s2

/-- The action on a permanent fault (R257). A ligature's is that of the router that the check names: it goes down (R122). Units whose fault
was acted on when it was found need none. -/
def actPermanent (s : State) (p : Nat) (u : FaultUnit) : State :=
  match u with
  | .array c n => breakArray s (32 * c + n)
  | .core c => fenceCore (notePermanent s [p]) c true
  | .ligature c _ _ => routerDown (notePermanent s [p]) c
  | .hbmScratch _ k => retireAt (notePermanent s [p]) k
  | .hbmPage pg k => countRetired (retirePage (notePermanent s [p]) p pg) k
  | .hbmState _ k => retireAt (notePermanent s [p]) k
  | .hbmImage k => retireAt (notePermanent s [p]) k
  | .router _ => notePermanent s [p]
  | .fence _ => notePermanent s [p]
  | .peer => notePermanent s [p]

/-! ### Classification (R256, R274) -/

def transLimit (s : State) : Nat := max 1 (s.field pgInteg 0x040 11 5)

/-- Transient faults of a unit within 2^20 strokes. -/
def recentTransients (s : State) (u : FaultUnit) : Nat :=
  (s.integ.history.filter (fun (v, n) => v == u && decide (s.stroke.number < n + 2 ^ 20))).length

def noteTransient (s : State) (u : FaultUnit) : State :=
  let g := s.integ
  raise { s with integ := { g with transients := sat 16 (g.transients + 1), history := (u, s.stroke.number) :: g.history } } pgInteg 1

/-- A unit's fault counts as permanent: it does, or would be the unit's TRANS_LIMIT-th transient one. -/
def isPermanent (s : State) (u : FaultUnit) (permanent : Bool) : Bool :=
  permanent || decide (transLimit s ≤ recentTransients s u + 1)

/-- A fault is classified: transient, or permanent and acted on. -/
def classifyUnit (s : State) (p : Nat) (u : FaultUnit) (permanent : Bool) : State :=
  if isPermanent s u permanent then actPermanent s p u else noteTransient s u

/-- The fault of a suspect step is classified, as `INTEG.LAST_SUSP` reports. -/
def classify (s : State) (p : Nat) (u : FaultUnit) (permanent : Bool) : State :=
  classifyUnit (setSuspResult s (if isPermanent s u permanent then 2 else 1)) p u permanent

/-! ### Commit and release (R251, R254) -/

/-- The job's step has committed: orders apply at the intake window that follows (R225). -/
def endStepOf (j : Job) : Job :=
  let y : Job := { j with inStep := false, items := [], suspects := [], fault := none, decision := none, statuses := [] }
  { y with ordersDue := true, replaying := false, hold := none, returned := none }

/-- The held step is over; `m` is counted if the step was not, which then spans all strokes up to this boundary. -/
def closeHold (s : State) (p : Nat) (j : Job) (m : Option Measure) : State :=
  let y : Job := match m with
    | some m => j.counted { m with span := j.total }
    | none => j
  (releaseProver s p).setJob p (endStepOf y)

/-- The core of a program fault that did not recur: its fault is a hardware fault (R146). -/
def faultCore (s : State) (p : Nat) (f : ProgFault) : FaultUnit := .core (match (s.part p).plan with
  | some pl => runCore s (pl.lcores.getD f.pindex 0)
  | none => 0)

/-- Units that a held step implicates: that which `INTEG.LAST_SUSP` shows first. -/
def heldUnits (s : State) (p : Nat) (h : Hold) : List FaultUnit :=
  let us := (h.suspect.map (·.unit)).toList ++ h.units ++ (h.fault.map (faultCore s p)).toList
  us.foldl (fun acc u => if acc.contains u then acc else acc ++ [u]) []

/-- What the same-hardware computation has said of a unit (R255, R256). -/
def heldPermanent (h : Hold) (u : FaultUnit) : Bool := h.sameFails.contains u || alwaysPermanent u

/-- Each unit of the held step is classified by its own rule (R256, R260). -/
def classifyHeld (s : State) (p : Nat) (h : Hold) : State :=
  match heldUnits s p h with
  | [] => s
  | u :: us => us.foldl (fun t v => classifyUnit t p v (heldPermanent h v)) (classify s p u (heldPermanent h u))

/-- The units whose checks failed in a replay, beside those of the step: a later replay classifies them; Q has committed (R260). -/
def laterHold (h : Hold) : Hold :=
  { h with
    slots := [], items := [], suspect := h.later.head?, fault := none, units := (h.later.map (·.unit)).dedup, later := [],
    kind := if h.later.any (fun x => x.unit.isLigature) then .ligatureSame else .normal, sameFails := [], otherFail := false, measure := none }

/-- The job goes on after a held step, or replays it once more for the units that remain. -/
def afterHold (s : State) (p : Nat) (h : Hold) : State :=
  if h.later.isEmpty then s
  else
    let g := giveProvers s p (laterHold h)
    g.1.updJob p (fun j => { j with hold := some g.2 })

/-- Q's items commit from the replay: in a pair those that the buddy gave back (R254, R259). -/
def releaseHeld (s : State) (p : Nat) (j : Job) (h : Hold) : State :=
  let items := match j.returned, buddyComputes s p h with
    | some (_, is), true => is
    | _, _ => j.items
  let s1 := releaseItems s p j items (fun n => h.slots.contains n)
  afterHold (classifyHeld (closeHold s1 p j h.measure) p h) p h

/-! ### Program faults (R148) -/

/-- Every core of the job stops issuing. -/
def stopScribes (s : State) (p : Nat) : State := match (s.part p).plan with
  | some pl => pl.lcores.foldl (fun t l => t.setScribe l { t.scribe l with mode := .stopped, atBar := false }) s
  | none => s

/-- The job halts on this device with cause 4: nothing of the step becomes visible, and no core of it goes on. -/
def haltProgram (s : State) (p : Nat) (j : Job) : State :=
  let s1 := (stopScribes (releaseProver s p) p).setJob p { endStepOf j with halted := true, haltCause := 4, ordersDue := false }
  raiseAll s1 [(pgStroke, 2 ^ 11), (pgFunc p, 2 ^ 4)]

/-- The fault that the job halts with: the recurring one, among them the ligature failure of R147. -/
def haltFault (h : Hold) : Nat × Nat × Nat × W64 := match h.faultAgain with
  | some f => (f.code, f.pindex, f.index, f.addr)
  | none => (0, 0, 0, 0#64)

def confirmFault (s : State) (p : Nat) (j : Job) (h : Hold) : State :=
  let (code, k, idx, addr) := haltFault h
  let s1 := s.updPart p (fun x => { x with pstat := { x.pstat with
    fault := BitVec.ofNat 32 (code % 16 + 2 ^ 4 * (k % 1024) + 2 ^ 14 * (idx % 2 ^ 14)), faultAddr := addr } })
  raise (haltProgram (setSuspResult s1 3) p j) (pgPlan p) 2

/-! ### Freezing (R258) -/

/-- Q's items are discarded and its requests frozen; those that were cancelled are ended by their cancel. Where Q has committed, and
only a classification was outstanding, nothing is frozen. -/
def freeze (s : State) (p : Nat) (j : Job) (h : Hold) : State :=
  let q := h.slots.filter (mayCommit s p)
  let s1 := q.foldl (fun t n => t.setSlot n { t.slot n with frozen := true }) s
  let done := (releaseProver s1 p).setJob p (endStepOf j)
  if h.slots.isEmpty && h.measure.isNone then done
  else
    let s2 := setSuspResult { done with integ := { done.integ with frozen := sat 16 (done.integ.frozen + q.length) } } 4
    raiseAll s2 [(pgInteg, 8), (pgFunc p, 2)]

/-! ### The boundary of a replay (R254, R260) -/

/-- A held step for its next replay. A program fault at another place follows: the first one is a hardware fault of its core, and the new
one is to recur in the replay that follows (R146). -/
def Hold.again (h : Hold) (s : State) (p : Nat) (j : Job) : Hold :=
  let h1 : Hold := { h with otherFail := false, faultAgain := none }
  match j.fault with
  | none => h1
  | some f =>
    let first := (h.fault.map (faultCore s p)).toList.filter (fun u => !h.units.contains u)
    { h1 with fault := some f, units := h.units ++ first }

/-- The replay ends without a release; another one follows, if the limit of R258 leaves room. -/
def holdOn (s : State) (p : Nat) (j : Job) (h : Hold) : State :=
  s.setJob p { j with inStep := false, hold := some h, items := [], decision := none, statuses := [], returned := none }

/-- Another replay follows, with other provers. -/
def replayAgain (s : State) (p : Nat) (j : Job) (h : Hold) : State :=
  let g := giveProvers s p (h.again s p j)
  holdOn g.1 p j g.2

/-- The replay step's COMMIT. -/
def replayDone (s : State) (p : Nat) (j : Job) (h : Hold) (d : Decision) : State :=
  match replayEnd s p j h with
  | .progFault => confirmFault s p j h
  | .again => replayAgain s p j h
  | .relay => holdOn s p j { h with kind := .ligatureRelay, otherFail := false }
  | .release =>
    if d.holdAll || d.holds.any (fun n => h.slots.contains n) then replayAgain s p j h else releaseHeld s p j h

/-! ### The boundary of a step (R19, R87, R91, R251, R254, R316, R318) -/

/-- A guest of an inserted step leaves its slot, which is as it was before; the `m` pages that came with it were the last of the pool. -/
def dropGuest (p : Nat) (s : State) (n m : Nat) : State :=
  let x := s.slot n
  let s1 := freeSlot s p n 4
  let s2 := s1.setSlot n { s1.slot n with gen := (x.gen + 65535) % 65536, lastEndGen := x.lastEndGen, lastEndSeq := x.lastEndSeq }
  s2.updPart p (fun y => { y with pagesTotal := y.pagesTotal - m })

/-- The guests of an inserted step leave (R259): what they staged has gone back to the partner, and the cores are as before. -/
def dropGuests (s : State) (p : Nat) (j : Job) : State :=
  let s1 := j.guests.foldl (fun t (_, n, m) => dropGuest p t n m) s
  match (s.part p).plan with
  | some pl => pl.lcores.foldl (fun t l => t.setScribe l { t.scribe l with arch := (t.scribe l).ckpt }) s1
  | none => s1

/-- The inserted step has run; the job's own next step follows. -/
def endInserted (s : State) (p : Nat) (j : Job) : State :=
  let y : Job := { j with inStep := false, items := [], suspects := [], fault := none, decision := none, statuses := [] }
  (dropGuests s p j).setJob p { y with inserting := false, guests := [], inserted := none }

/-- A step commits: requests outside Q release their items; with a Q the step is held. -/
def commitStep (s : State) (p : Nat) (pl : Plan) (j : Job) (d : Decision) : State :=
  let q := if d.holdAll || holdsAll j then listSlots j
    else (holdsOf s j ++ (listSlots j).filter (fun n => d.holds.contains n)).dedup
  if j.suspects.isEmpty && j.fault.isNone && !d.holdAll && q.isEmpty then
    let s1 := releaseItems s p j j.items (fun _ => true)
    s1.setJob p (endStepOf (j.counted (measureOf s pl j d.refused)))
  else openHold (releaseItems s p j j.items (fun n => !q.contains n)) p pl j q d.refused

/-- The pair of a job whose step commits unpaired resynchronises (R316). -/
def unpairStep (s : State) (p : Nat) (d : Decision) : State :=
  if pairedNow s p && !d.paired then setPair s p Pair.toSync else s

/-- The pair keeps the step from committing: in ISOLATED nothing commits; in PAIRED the decision must be acknowledged (R318, R319). -/
def pairHolds (s : State) (p : Nat) (d : Decision) : Bool :=
  (s.part p).pair.state == .isolated || (pairedNow s p && d.paired && !(s.part p).pair.decisionAcked)

/-- A decision is applied (R87). -/
def applyDecision (s : State) (p : Nat) (pl : Plan) (j : Job) (d : Decision) : State :=
  if !d.commit then
    if j.hold.isSome || j.inserting then s.setJob p { j with decision := none, statuses := [] } else stretch s p j
  else if pairHolds s p d then s
  else
    let s1 := unpairStep s p d
    let j1 : Job := { j with switchDue := d.switch_ && j.hold.isNone }
    let s2 := if j.inserting then endInserted s1 p j
      else
        match j.hold with
        | some h => replayDone s1 p j1 h d
        | none => setPair (commitStep s1 p pl j1 d) p (fun r => { r with jobPaired := pairedNow s p && d.paired })
    if d.adopt then adopt s2 p else s2

/-- The strokes of a job are counted at the boundary: those of the step in all, those that count towards MAX_SPAN, and those since B0 of a
held step. What a hold of R254 or of the pair keeps is no stretch (R93, R94, R100, R258, R324). -/
def Job.passed (j : Job) (paired isolated : Bool) : Job :=
  let waits := isolated || (paired && j.decision.any (fun d => d.commit))
  { j with
    total := j.total + 1, span := if j.inStep && j.hold.isNone && !j.inserting && !waits then j.span + 1 else j.span
    hold := j.hold.map (fun h => { h with age := h.age + 1 }) }

/-- The strokes of every job are counted. -/
def countStrokes (s : State) (p : Nat) : State :=
  s.updJob p (fun j => if j.started then j.passed (pairedNow s p) ((s.part p).pair.state == .isolated) else j)

/-- A job at a boundary: the decision it holds for the step, a stretch where it decides itself and has none, otherwise a hold. -/
def jobBoundary (s0 : State) (p : Nat) : State :=
  let s := countStrokes s0 p
  match (s.part p).plan, s.job p with
  | some pl, some j =>
    if !j.inStep then s
    else if j.inserting && !pairedNow s p then endInserted s p j
    else
      match j.decision with
      | some d => if d.stepNo = curStep j then applyDecision s p pl j d else s
      | none =>
        if decides s p j && j.hold.isNone && !j.inserting && (s.part p).pair.state != .isolated then stretch s p j else s
  | _, _ => s

end Sys2Proof.Machine
end

