-- ==== Sys2Proof/Machine/Boundary.lean ====
section
/-! DEFINITION. The stroke boundary: the time base, every job's decision, and what takes effect at a boundary (R70, R76 to R78, R99, R109,
R116, R120, R121, R124, R134, R225, R228, R229, R240, R261, R279, R286, R287, R289, R332, R342). -/

namespace Sys2Proof.Machine

/-! ### The time base (R77, R78) -/

/-- The count reaches `n` and restarts, and the number rises; whether a pulse confirmed the boundary before is taken down (R77, R78). -/
def newStroke (s0 : State) (n : Nat) : State :=
  let s := advanceTo s0 n
  let x := s.stroke
  { s with stroke := { x with
      base := x.base + x.count, count := 0, number := (x.number + 1) % 2 ^ 64, confirmed := false,
      missed := if x.confirmed then 0 else x.missed + 1 } }

/-- STOP ordered: strokes end at the boundary. DESIGN CHOICE (log entry 98): R99 does not say what becomes of an accepted STOP where a plan is
loaded before that boundary; it is not carried out while a plan is loaded, and stays pending. -/
def stopsNow (s : State) : Bool := s.stroke.stopPend && !s.parts.any (fun (_, x) => x.plan.isSome)

/-! ### Requests (R228, R229, R233, R240) -/

/-- Partitions that exist. -/
def livePartsOf (s : State) : List Nat := (s.parts.filter (fun (_, x) => x.state != .none && x.state != .creating)).map (·.1)

/-- A cancelled request ends at the boundary, whatever the job is doing. -/
def cancelOne (p : Nat) (s : State) (n : Nat) : State :=
  if (s.slot n).cancel.isNone then s
  else if notEntry s p then freeSlot s p n 3 else endCancelled s p n

/-- A complete park copy: the pages are freed, the time to live starts (R228, R233). -/
def parkOne (p : Nat) (s : State) (n : Nat) : State :=
  let x := s.slot n
  if x.state = .parking ∧ x.copyDone then
    let s1 := freePrivate s p n
    let s2 := s1.setSlot n { s1.slot n with state := .parked, reserved := 0 }
    complete s2 p false (slotEntry s2 n 6 0 x.desc.hostTag s.stroke.number)
  else s

/-- A parked request whose time to live has elapsed ends with END 5; records and completions are the entry device's (R18). -/
def expireOne (p : Nat) (s : State) (n : Nat) : State :=
  let x := s.slot n
  if x.state = .parked ∧ x.expired then endHere s p n 5 else s

def expireHandle (s : State) (h : Nat) : State :=
  let x := s.handle h
  if x.expired ∧ x.state = .sealed ∧ x.users = 0 then retireHandle s h 5 else s

/-- Orders of a partition whose job will commit no step: halted, or none loaded. -/
def idleOrders (s : State) (p : Nat) : State :=
  if jobHalted s p then applyOrders s p s.stroke.number true []
  else if (s.part p).plan.isNone then applyOrders s p s.stroke.number false []
  else s

def requestBoundary (s : State) (p : Nat) : State :=
  if (s.part p).rst.isSome then s
  else
    let s1 := (slotsOf s p).foldl (cancelOne p) s
    let s2 := (slotsOf s1 p).foldl (parkOne p) s1
    let s3 := (slotsOf s2 p).foldl (expireOne p) s2
    let s3' := if windowOpen s3 p then (slotsOf s3 p).foldl (resumePages p) s3 else s3
    let s4 := (handlesOf s3' p).foldl expireHandle s3'
    idleOrders ((handlesOf s4 p).foldl (fun t h => payOwed t p h) s4) p

/-! ### Partitions (R134, R316, R318, R332, R342, R344) -/

/-- An accepted unload takes effect once the job has no step in progress (R134). -/
def unloadBoundary (s : State) (p : Nat) : State :=
  let x := s.part p
  match x.job with
  | some j => if x.pstat.busy = 2 ∧ !j.inStep ∧ j.hold.isNone then pairStep (unloadPlan s p) p else s
  | none => s

def partBoundary (s : State) (p : Nat) : State :=
  unloadBoundary (discardBoundary (pairStep (pairBoundary s p) p) p) p

/-! ### Remap table (R109, R116, R120, R121, R124) -/

/-- A step of the partition of logical core `l` runs on, over the boundary. -/
def midStep (s : State) (p : Nat) : Bool := match s.job p with
  | some j => j.inStep
  | none => false

/-- The core that hosts a logical core (R121): the ACTIVE core of the partition in mode ARRAYS with the greatest slack, or with the lowest
number while no step has committed. -/
def hostFor (s : State) (p : Nat) : Option Nat := (mostSlack (activeSlack s p)).map (·.1)

/-- The order in progress on a core ends with OK (R126). -/
def orderEnds (s : State) (c : Nat) : State := if orderOn s c then endOrder s 0 else s

/-- The image for a taking spare has changed since the fence, by a change of edition that has begun or ended: what was queued for it is
dropped, and it is programmed from the image that R120 names at this boundary. -/
def retarget (s : State) (sp : Nat) : State :=
  let x := s.pcore sp
  match takingImage (s.part x.part) with
  | none => s
  | some (_, nx) =>
    if s.weight.queue.any (fun q => q.pcore == sp && q.why == .takeover && q.fromNext != nx) then
      programCore (dropProgs s sp) sp x.part x.lcore .takeover
    else s

/-- A change of the remap table: a spare takes over in FAIRCOPY (R120), or a host serves the plan (R121). DESIGN CHOICE (log entry 95): what
the SRAM of the spare holds when it takes over is not said; it is given the contents that the fenced core's had. Where no ACTIVE core of
the partition is left to host, nothing runs the plan of the logical core: its entry is unused. -/
def applyRemap (s : State) (l : Nat) : State :=
  let r := s.remapOf l
  match r.next with
  | none => s
  | some (pc, .hosted, _) =>
    let s1 := match hostFor s r.part with
      | some h => raise (s.setRemap l { r with pcore := pc, mode := .hosted, host := h, next := none }) pgMesh 7
      | none => s.setRemap l { r with mode := .unused, host := pc, next := none }
    if s.mesh.fenceOp = 1 then orderEnds s1 pc else s1
  | some (pc, mode, _) =>
    orderEnds (raise (retarget (s.setRemap l { r with pcore := pc, mode := mode, host := pc, next := none }) pc) pgMesh 4)
      (s.pcore pc).takeFrom

/-- Every array that the image places on a core serves, or has failed for good, and none of its programmings is left (R120, R295). -/
def coreServes (s : State) (c : Nat) : Bool :=
  !s.weight.queue.any (fun q => q.pcore == c)
  && (List.range 32).all (fun n =>
      let k := 32 * c + n
      match (s.part (s.pcore c).part).curImage with
      | some im => (placedTile s im k).isNone || eligible s k || (s.array k).resState == .failed
      | none => true)

/-- A FAIRCOPY core whose arrays all serve: the mode becomes ARRAYS (R120). -/
def finishTaking (s : State) (l : Nat) : State :=
  let r := s.remapOf l
  if r.mode = .fairCopy ∧ r.next.isNone ∧ coreServes s r.pcore ∧ midStep s r.part = false then
    raise ((setKind s r.pcore .active).setRemap l { r with mode := .arrays, host := r.pcore }) pgMesh 5
  else s

/-- A migration whose spare is programmed and verified takes effect (R124, R257). The plans that the original core hosts go with its role:
a host is an ACTIVE core (R116). -/
def finishMigration (s : State) (c : Nat) : State :=
  let x := s.pcore c
  let old := x.takeFrom
  let l := x.lcore
  if x.kind = .taking ∧ x.takeWhy ≠ .replace ∧ !s.weight.queue.any (fun q => q.pcore == c) ∧ midStep s x.part = false
      ∧ (s.pcore old).kind = .active then
    let s1 := setKind (setKind s c .active) old (if x.takeWhy = .migrate then .spare else .fenced)
    let s2 := s1.setRemap l { s1.remapOf l with pcore := c, mode := .arrays, host := c, next := none }
    let hosts := (s2.remap.filter (fun (_, r) => r.mode == .hosted && r.host == old && r.next.isNone)).map (·.1)
    let s2' := hosts.foldl (fun t k => t.setRemap k { t.remapOf k with host := c }) s2
    let s3 := orderEnds (raise s2' pgMesh 11) old
    if x.takeWhy = .migrateFence then raise s3 pgMesh 3 else s3
  else s

/-- Changes of the table, and the chain orders of plans bound to a changed one (R109). Answers also the logical cores concerned. -/
def remapBoundary (s : State) : State × List Nat :=
  let ls := (s.remap.filter (fun (_, r) => r.mode != .unused)).map (·.1)
  let s1 := ls.foldl applyRemap s
  let s2 := ls.foldl finishTaking s1
  let s3 := (s2.pcores.map (·.1)).foldl finishMigration s2
  let hit := ls.filter (fun l => (s3.remapOf l).pcore != (s.remapOf l).pcore || (s3.remapOf l).mode != (s.remapOf l).mode)
  ((hit.map (fun l => (s3.remapOf l).part)).dedup.foldl rebindChains s3, hit)

/-! ### Array service (R279, R286, R287) -/

/-- An array of a SPARE core that may take a shadow (R287). -/
def shadowPlace (s : State) (k : Nat) : Option Nat :=
  let used (x : Nat) : Bool := s.weight.shadows.any (fun y => y.1 == x) || s.weight.queue.any (fun q => progKey q == x)
  match chooseSpareFrom ((coresIn s .spare).filter (fun c => !s.integ.provers.any (fun y => y.1 == c)
      && (List.range 32).any (fun n => !used (32 * c + n)))) (k / 32) with
  | none => none
  | some c => ((List.range 32).map (fun n => 32 * c + n)).find? (fun x => !used x)

/-- A rewrite of an array in service that must wait for its shadow: its shadow is queued first (R287). -/
def shadowFirst (s : State) (q : Prog) : Option State :=
  let k := progKey q
  if (s.reg pgWeight 0x064).getLsbD 6 && (q.why == .refresh || q.why == .verify) && !(s.array k).fenced then
    if s.weight.shadows.any (fun x => x.2 == k) then none
    else if s.weight.queue.any (fun r => r.shadowOf == some k) then some s
    else
      match shadowPlace s k with
      | none => none
      | some x => some (queueProg s { newProg x .shadow q.part (progTile s q) false with shadowOf := some k })
  else none

/-- Marks the queued programming of an array as having taken it out of service. -/
def markOut (s : State) (k : Nat) : State :=
  { s with weight := { s.weight with queue := s.weight.queue.map (fun q => if progKey q = k then { q with out := true } else q) } }

/-- Programmings that wait for their array to leave service; refreshes leave only as many arrays out as there are bulk slots. -/
def leaveService (s : State) (q : Prog) : State :=
  if q.out || q.started || midStep s q.part || (q.why == .refresh && partChanging (s.part q.part)) then s
  else if q.why = .refresh
      ∧ bulkLimit s ≤ (s.weight.queue.filter (fun r => r.why == .refresh && r.out)).length then s
  else
    match shadowFirst s q with
    | some t => t
    | none => markOut s (progKey q)

/-- Arrays of cores that hold a logical number, of partitions between two steps: an array that was never written is one of them (R278). -/
def servingKeys (s : State) : List Nat :=
  ((s.pcores.map (·.1)).filter (fun c =>
    let x := s.pcore c
    (x.kind == .active || x.kind == .taking) && !midStep s x.part)).flatMap (fun c => (List.range 32).map (fun n => 32 * c + n))

/-- An array out of service whose work a shadow or a prover may take (R286). -/
def proverCause (s : State) (k : Nat) : Bool :=
  let a := s.array k
  let x := s.part (s.pcore (k / 32)).part
  a.fenced && x.plan.isSome && (s.remapOf (s.pcore (k / 32)).lcore).mode == .arrays
  && (a.broken || a.resState == .failed || !trimOk s k
      || s.weight.queue.any (fun q => progKey q == k && (q.why == .refresh || q.why == .verify)))

/-- A prover for an array, serving at most 8 (R255, R286). -/
def arrayProver (s : State) (p c : Nat) : Option Nat :=
  let load (x : Nat) : Nat := (s.integ.provers.filter (fun y => y.1 == x && decide (y.2 < 2 ^ 20))).length
  let full := ((s.integ.provers.map (·.1)).dedup).filter (fun x => decide (8 ≤ load x))
  match (idleCores s p).find? (fun x => x != c && !full.contains x) with
  | some x => some x
  | none =>
    match ((s.integ.provers.map (·.1)).dedup).find? (fun x => (s.pcore x).kind == .spare && decide (0 < load x) && decide (load x < 8)) with
    | some x => some x
    | none =>
      match spareProver s c [] with
      | some x => some x
      | none => (mostSlack ((activeSlack s p).filter (fun x => x.1 != c && !full.contains x.1))).map (·.1)

/-- Who serves an array out of service: its shadow, a prover, or the engine. -/
def assignServer (s : State) (k : Nat) : State :=
  if !proverCause s k then s.setArray k { s.array k with shadowed := false }
  else if s.weight.shadows.any (fun x => x.2 == k) then s.setArray k { s.array k with shadowed := true }
  else
    match arrayProver s (s.pcore (k / 32)).part (k / 32) with
    | none => s.setArray k { s.array k with shadowed := false }
    | some c =>
      let s1 := { s with integ := { s.integ with provers := s.integ.provers ++ [(c, k)] } }
      s1.setArray k { s1.array k with shadowed := true }

/-- Shadows of arrays that serve again are dropped, and those of a spare that has been taken (R287). -/
def dropDoneShadows (s : State) : State :=
  { s with weight := { s.weight with shadows := s.weight.shadows.filter (fun x =>
      (s.pcore (x.1 / 32)).kind == .spare
      && ((s.array x.2).fenced || s.weight.queue.any (fun q => progKey q == x.2))) } }

/-- Arrays leave and return to service (R278, R279); answers those that returned. -/
def serviceBoundary (s : State) : State × List Nat :=
  let s1 := s.weight.queue.foldl leaveService s
  let ks := servingKeys s1
  let s2 := ks.foldl refreshService s1
  let back := ks.filter (fun k => (s1.array k).fenced && !(s2.array k).fenced)
  let s3 := { s2 with integ := { s2.integ with provers := s2.integ.provers.filter (fun x =>
    decide (2 ^ 20 ≤ x.2) || !ks.contains x.2) } }
  (ks.foldl assignServer (dropDoneShadows s3), back)

/-! ### Calibrations and trim adapters (R70, R76, R289) -/

/-- Stored trims take effect at the first boundary after the store, whatever the step (R289). -/
def calOne (s : State) (k : Nat) : State :=
  let a := s.array k
  resetCorrections (s.setArray k { a with trims := a.nextTrims, nextTrims := [], trimNew := false, trimBad := false }) k

def calBoundary (s : State) : State × List Nat :=
  let ks := (s.arrays.filter (fun (_, a) => a.trimNew)).map (·.1)
  (ks.foldl calOne s, ks)

/-- Between two steps, trim adapters that an event has hit are cleared, and accepted versions take effect: a step uses one version
throughout (R70). -/
def trimBoundary (s : State) (p : Nat) : State :=
  if midStep s p then s
  else
    let due := ((s.part p).trims.filter (fun (_, t) => t.clearDue)).map (·.1)
    let s1 := due.foldl (clearTrim p) s
    s1.updPart p (fun x => { x with trims := Tbl.mapVal (fun _ t => match t.pending with
      | none => t
      | some (off, v) => { t with offset := off, version := v, pending := none, number := t.number + 1 }) x.trims })

/-- Tiles that the image of a partition places on a logical core. -/
def tilesOfCore (s : State) (l : Nat) : List Nat :=
  let p := (s.remapOf l).part
  match (s.part p).curImage with
  | none => []
  | some im => (List.range 32).filterMap (im.tileAt (coreIndex s p l))

/-- Remapped cores and reprogrammed, refreshed or recalibrated arrays hit the trim adapters of their projections (R70). -/
def hitTrims (s : State) (ls ks : List Nat) : State :=
  let s1 := ls.foldl (fun t l => clearByTiles t (t.remapOf l).part (tilesOfCore t l)) s
  ks.foldl (fun t k => clearByTiles t (t.pcore (k / 32)).part [(t.array k).tile]) s1

/-! ### Sampling (R261, R262) -/

/-- Checkers: idle plan indices of the partition, then SPARE cores; each carries one sample (R261). -/
def freeCheckers (s : State) (p : Nat) : List Nat :=
  (idleCores s p ++ coresIn s .spare).filter (fun c => !s.integ.checks.any (fun x => x.checker == c)
    && !s.integ.provers.any (fun y => y.1 == c))

def sampleEn (s : State) : Bool := s.sec.lcState == 1 || (s.reg pgInteg 0x040).getLsbD 16

/-- Before: forced samples first, then those that are chosen again, then the oldest sample (R261, R263). -/
def sampleBefore (s : State) (a b : Nat) : Bool :=
  let x := s.pcore a
  let y := s.pcore b
  if (x.sampleRuns = 0) ≠ (y.sampleRuns = 0) then decide (y.sampleRuns = 0)
  else if x.sampleNext ≠ y.sampleNext then x.sampleNext
  else decide (x.lastSample < y.lastSample) || (x.lastSample == y.lastSample && decide (a < b))

def insertSample (s : State) (a : Nat) : List Nat → List Nat
  | [] => [a]
  | b :: bs => if sampleBefore s a b then a :: b :: bs else b :: insertSample s a bs

/-- Physical cores that run the plan of a job. -/
def jobCores (s : State) (pl : Plan) : List Nat :=
  (((planCores pl).filter (fun l => (s.remapOf l).mode != .unused)).map (runCore s)).dedup

/-- The plan indices that a physical core runs are recorded in the step that begins (R261). -/
def traceCore (pl : Plan) (s : State) (c : Nat) : State :=
  let s1 := s.setPcore c { s.pcore c with sampleNext := false }
  ((planCores pl).filter (fun l => runCore s l == c)).foldl (fun t l => t.setScribe l { t.scribe l with traced := true }) s1

/-- The cores of a partition to be sampled in the step that begins: one for each free checker (DESIGN CHOICE, log entry 104: how many a
device takes is its own choice, beyond the bound of R262). -/
def selectSamples (s : State) (p : Nat) : State :=
  match (s.part p).plan, s.job p with
  | some pl, some j =>
    if !sampleEn s || !j.inStep || j.replaying || j.inserting || j.openStroke != s.stroke.number then s
    else
      let cs := ((jobCores s pl).foldl (fun acc c => insertSample s c acc) []).take (freeCheckers s p).length
      let s1 := cs.foldl (traceCore pl) s
      { s1 with integ := { s1.integ with sampled := s1.integ.sampled.filter (fun x => x.1 != p) ++ cs.map (fun c => (p, c)) } }
  | _, _ => s

/-- What has been recorded of a core in the step (R261). -/
def tracesOf (s : State) (pl : Plan) (c : Nat) : List Trace :=
  ((planCores pl).filter (fun l => (s.scribe l).traced && runCore s l == c)).map (fun l =>
    let x := s.scribe l
    { lcore := l, ckpt := x.ckpt, vals := x.trace, digest := x.outDig })

/-- Bytes of traces: a checkpoint of 160 KiB and the values that entered (R252, R261). -/
def traceSize (ts : List Trace) : Nat := (ts.map (fun t => 163840 + (t.vals.map (·.length)).sum)).sum

/-- The step of a sampled core has ended at this boundary: its trace goes to a checker. One beyond 256 MiB, or for which the pool of 4 GiB has
no room (log entry 104), is skipped, and the core is chosen again (R261). -/
def startCheck (p : Nat) (pl : Plan) (s : State) (c : Nat) : State :=
  match freeCheckers s p with
  | [] => s
  | k :: _ =>
    let g := s.integ
    let ts := tracesOf s pl c
    let held := (g.checks.map (fun x => traceSize x.traces)).sum
    if ts.isEmpty then s
    else if 2 ^ 28 < traceSize ts ∨ 2 ^ 32 < held + traceSize ts then
      let s1 := s.setPcore c { s.pcore c with sampleNext := true }
      { s1 with integ := { g with sampleSkip := sat 8 (g.sampleSkip + 1) } }
    else
      { s with integ := { g with
          nextId := g.nextId + 1
          checks := g.checks ++ [{ id := g.nextId, part := p, pcore := c, traces := ts, stroke := s.stroke.number, first := none,
                                   checker := k }] } }

/-- Samples of steps that ended at this boundary, `old` being the state before it. A step that is held or abandoned is not sampled to its
end (log entry 104). -/
def endSamples (old s : State) (p : Nat) : State :=
  match (s.part p).plan, old.job p, s.job p with
  | some pl, some j, some j1 =>
    if j.inStep && !j.replaying && !j.inserting && !j1.inStep && j1.hold.isNone then
      let cs := (s.integ.sampled.filter (fun x => x.1 == p)).map (·.2)
      let s1 := cs.foldl (startCheck p pl) s
      { s1 with integ := { s1.integ with sampled := s1.integ.sampled.filter (fun x => x.1 != p) } }
    else s
  | _, _, _ => s

/-- SAMPLE_LATE (R262): a core of a loaded job has gone W strokes less 2 without a sample because no checker was free. -/
def lateSamples (s : State) (p : Nat) : State :=
  match (s.part p).plan, s.job p with
  | some pl, some j =>
    let w := max 64 (s.field pgInteg 0x040 0 11)
    let late := (jobCores s pl).filter (fun c => max (s.pcore c).lastSample pl.startAt + w == s.stroke.number + 2)
    if sampleEn s && j.started && !late.isEmpty && (freeCheckers s p).isEmpty then
      raise { s with integ := { s.integ with sampleLate := sat 8 (s.integ.sampleLate + 1) } } pgInteg 7
    else s
  | _, _ => s

/-! ### The boundary -/

/-- What takes effect between the steps: the table, the arrays, their calibrations, and the adapters (R70, R76, R116, R279, R289);
refreshes that are due join the queue, and a rolling change with nothing left to program ends (R285, R294). -/
def unitBoundary (s : State) : State :=
  let ps := livePartsOf s
  let a := remapBoundary s
  let b := calBoundary a.1
  let c := serviceBoundary b.1
  let s1 := ps.foldl trimBoundary (hitTrims c.1 a.2 (b.2 ++ c.2))
  let s2 := ps.foldl (fun t p => settleAdapters t p (midStep t p)) s1
  ps.foldl endRolling ((s2.arrays.map (·.1)).foldl queueDue s2)

/-- The partitions, their jobs and requests at a boundary. -/
def jobsBoundary (s : State) : State :=
  let s1 := (livePartsOf s).foldl jobBoundary s
  let s2 := (livePartsOf s1).foldl (endSamples s) s1
  let s3 := (livePartsOf s2).foldl resetBoundary s2
  let s4 := (livePartsOf s3).foldl requestBoundary s3
  doPartOrders ((livePartsOf s4).foldl partBoundary s4)

/-- The mark of a core that runs another's role for a proof, among `Integ.provers`. -/
def substKey : Nat := 2 ^ 21 + 1

/-- A substitution for a proof lasts one stroke (R267). -/
def proofBoundary (s : State) : State :=
  { s with integ := { s.integ with
      proof := s.integ.proof.map (fun r => { r with subst := none }), provers := s.integ.provers.filter (fun x => x.2 != substKey) } }

/-- Reads of the INTEG counters return the values as of the last boundary (R274). -/
def showCounters (s : State) : State :=
  let g := s.integ
  { s with integ := { g with shown := {
      proofRounds := g.proofRounds, proofFails := g.proofFails, proofLate := g.proofLate, sampleLate := g.sampleLate,
      sampleSkip := g.sampleSkip, suspects := g.suspects, transients := g.transients, permanents := g.permanents, frozen := g.frozen,
      pagesRetired := g.pagesRetired } } }

def pairShown (r : Pair) : PairShown :=
  { state := r.state, jobPaired := r.jobPaired, hbAge := r.hbAge, adopted := r.adopted, pages := mirrorPages r }

/-- Pairs and partitions as reads show them until the next boundary (R327, R347). -/
def showHost (s : State) : State :=
  { s with shown := {
      pairs := s.parts.map (fun (p, x) => (p, pairShown x.pair)),
      parts := s.parts.map (fun (p, x) => (p, x.state)),
      hbmFree := hbmFreeMib s, coresFree := coresFree s } }

/-- A stroke boundary while strokes run on. -/
def boundary (s : State) : State :=
  let s1 := proofBoundary (unitBoundary (jobsBoundary s))
  let s2 := (livePartsOf s1).foldl startNext s1
  let s3 := (livePartsOf s2).foldl lateSamples ((livePartsOf s2).foldl selectSamples s2)
  showHost (showCounters (raiseLows s s3))

/-- The boundary of the stroke that `s` has just entered. -/
def enterStroke (s : State) : State :=
  if s.bring.lockStop then lockStopNow s
  else if stopsNow s then { s with stroke := { s.stroke with state := .stopped, stopPend := false } }
  else boundary s

/-- STROKE_BOUNDARY (R77): the count reaches the period. While no strokes run there is no boundary. -/
def execStrokeBoundary (s : State) : Host.Outcome State Fault Refusal :=
  if !strokesRun s || s.shut then .next s else .next (enterStroke (newStroke s s.stroke.periodAct))

end Sys2Proof.Machine
end

