-- ==== Sys2Proof/Machine/Editions.lean ====
section
/-! DEFINITION. Edition switches: the end of an offline change and the switch of a rolling one (R76, R243, R287, R290 to R295). -/

namespace Sys2Proof.Machine

/-- The effects of an edition switch on handles (R243, R291). -/
def staleHandle (s : State) (h : Nat) : State :=
  let x := s.handle h
  if x.state = .sealed then s.setHandle h { x with state := .stale } else s

/-- NEXT becomes CURRENT, the old image is freed, and R291 applies. Host software orders the switch alike on the buddy: a paired partner is
taken to serve the new edition too, until a heartbeat says otherwise (R293, R324; log entry 103). -/
def switchEdition (s : State) (p : Nat) (im : Image) : State :=
  let s1 := s.updPart p (fun x => { x with
    curImage := some im, nextImage := none, edition := im.edition, edDigest := im.digest, rollWait := false,
    rollRaised := false, noAdapter := false,
    pair := { x.pair with peerEdition := if x.pair.state = .paired then im.edition else x.pair.peerEdition }
    adapters := x.adapters.filter (fun (_, a) => a.edition == im.edition)
    adaptersNew := x.adaptersNew.filter (fun (_, a) => a.edition == im.edition) })
  let s2 := (handlesOf s1 p).foldl staleHandle s1
  let s3 := ((s2.part p).trims.map (·.1)).foldl (clearTrim p) s2
  refreshSpecial s3 p

/-- The switch is refused: a tile of NEXT cannot be read (R295). -/
def refuseSwitch (s : State) (p : Nat) : State :=
  raise (s.updPart p (fun x => { x with
    nextImage := none, change := .none, rollWait := false, rollRaised := false, noAdapter := false })) pgWeight 3

/-! ### Offline (R290) -/

/-- Work of the change that is not complete. -/
def offlineWork (p : Nat) (q : Prog) : Bool := q.part == p && (q.why == .offline || q.why == .erase || q.fromNext)

/-- What a change that is refused had queued is dropped. -/
def dropOffline (s : State) (p : Nat) : State :=
  { s with weight := { s.weight with queue := s.weight.queue.filter (fun q => !(offlineWork p q && !q.started)) } }

/-- Programmings of NEXT that go on read CURRENT, which NEXT has become. -/
def fromCurrent (s : State) (p : Nat) : State :=
  { s with weight := { s.weight with queue := s.weight.queue.map (fun q => if q.part = p then { q with fromNext := false } else q) } }

/-- OFFLINE_CHANGE_COMPLETE (R290): at the boundary after the last array has completed. -/
def execOfflineChangeComplete (part : Nat) (s : State) : Host.Outcome State Fault Refusal :=
  match (s.part part).change, (s.part part).nextImage with
  | .offline, some im =>
    if !im.lost.isEmpty then .next (refuseSwitch (dropOffline s part) part)
    else if s.weight.queue.any (offlineWork part) then .next s
    else
      let s1 := fromCurrent (switchEdition s part im) part
      .next (raise (s1.updPart part (fun x => { x with change := .none })) pgWeight 1)
  | _, _ => .next s

/-! ### Rolling (R293, R294) -/

/-- Programmings of the partition that the switch makes pointless: all but those of spares that take over, which read CURRENT, and
those that have started. A started shadow of the earlier edition serves no array. -/
def clearForRoll (s : State) (p : Nat) : State :=
  let mine := ownArrays s p
  { s with weight := { s.weight with
      queue := (s.weight.queue.filter (fun q => q.part != p || q.started || repairWork q)).map (fun q =>
        if q.part = p then { q with shadowOf := none } else q)
      shadows := s.weight.shadows.filter (fun (_, o) => !mine.contains o) } }

/-- An array leaves service and is queued. -/
def rollArray (p : Nat) (im : Image) (s : State) (k : Nat) : State :=
  match placedTile s im k with
  | none => s
  | some tile =>
    let s1 := s.setArray k { s.array k with fenced := true, shadowed := false }
    queueProg s1 { newProg k .rolling p tile false with out := true }

/-- The switch (R294): every array of the partition is out of service and queued. -/
def rollNow (s : State) (p : Nat) (im : Image) : State :=
  let s1 := clearForRoll (switchEdition s p im) p
  let s2 := (ownArrays s1 p).foldl (rollArray p im) s1
  endRolling (s2.updPart p (fun x => { x with change := .rolling })) p

/-- The job's step has committed at this boundary, and none of the partition is held (R293). -/
def stepCommitted (s : State) (p : Nat) : Bool := match s.job p with
  | some j => j.ordersDue && !j.listFixed && j.hold.isNone
  | none => false

/-- For a job that spans several devices the entry device decides the switch together with COMMIT (R293). -/
def switchDecided (s : State) (p : Nat) : Bool := match s.job p with
  | some j => !multiDevice j || j.switchDue
  | none => false

/-- An adapter in use holds the switch back: ROLL_WAIT is raised once. -/
def holdBack (s : State) (p : Nat) : State :=
  let s1 := s.updPart p (fun x => { x with rollWait := true, rollRaised := true })
  if (s.part p).rollRaised then s1 else raise s1 pgWeight 7

/-- `WEIGHT.STAT.ROLL_WAIT` of a partition: adapter use holds the switch back (R293, R297). -/
def rollWaits (s : State) (p : Nat) : Bool := (s.part p).rollWait && adapterNamed s p

/-- No adapter holds the switch back. -/
def letGo (s : State) (p : Nat) : State := s.updPart p (fun x => { x with rollWait := false })

/-- ROLL_SWITCH (R293 to R295). -/
def execRollSwitch (part : Nat) (s : State) : Host.Outcome State Fault Refusal :=
  match (s.part part).change, (s.part part).nextImage with
  | .rollPending at_, some im =>
    if s.stroke.number < at_ || !stepCommitted s part then .next s
    else if !im.lost.isEmpty then .next (refuseSwitch s part)
    else if adapterNamed s part then .next (holdBack s part)
    else if switchDecided s part then .next (rollNow s part im)
    else .next (letGo s part)
  | _, _ => .next s

end Sys2Proof.Machine
end

