-- ==== Sys2Proof/Machine/EngineOps.lean ====
section
/-! DEFINITION. Format, matrix, vector, selection and integrity instructions of the digital engine (R166 to R168, R192 to
R200, R207, R209). -/

namespace Sys2Proof.Machine

/-! ### Format instructions -/

/-- QB4 (R166): slice, header and BROAD_REQ. -/
def execQb4 (i : Issue) (s : State) : Host.Outcome State Fault Refusal :=
  archOp .qb4 i s (fun sc =>
    let bf16 := fieldFlag i.f 0
    let xs := sourceElems bf16 (rdVs i sc i.f.src1.toNat (if bf16 then 4 else 8))
    let e : Int := if fieldFlag i.f 2 then ((rdG i sc (immBits i.f 16 5)).extractLsb' 0 8).toInt
                   else (i.f.imm.extractLsb' 8 8).toInt
    let r := qb4 xs (if fieldFlag i.f 1 then none else some e) ((rdG i sc i.f.src2.toNat).extractLsb' 0 32)
    ((sc.arch.setV i.f.dest.toNat (ofSlice4 r.1)).setG (immBits i.f 0 5) r.2).setP (immBits i.f 5 3) (r.2.getLsbD 60))

/-- QB8 (R166): a B8 header in source 2 faults. -/
def execQb8 (i : Issue) (s : State) : Host.Outcome State Fault Refusal :=
  archOp? .qb8 i s (fun sc =>
    let bf16 := fieldFlag i.f 0
    let h := rdG i sc i.f.src2.toNat
    if hdrFmtB8 h then none
    else
      let xs := sourceElems bf16 (rdVs i sc i.f.src1.toNat (if bf16 then 4 else 8))
      let r := qb8 xs (hdrEref h)
      let sl := ofSlice8 r.1
      some ((sc.arch.setVs i.f.dest.toNat [sl.1, sl.2]).setG (immBits i.f 0 5) r.2))

/-- The mode of a DQC (R167). A row of DQC whose word names another mode is no encoding of that row. -/
def dqcMode (f : Fields) : Nat := (f.flags.extractLsb' 0 2).toNat

def execDqcAlignN (i : Issue) (s : State) : Host.Outcome State Fault Refusal :=
  archOp? .dqc i s (fun sc =>
    let n := i.f.src1.toNat
    if dqcMode i.f ≠ 0 then none
    else some (sc.arch.setV i.f.dest.toNat (alignN (rdV i sc n) (rdV i sc (n + 1)) (immBits i.f 0 3))))

/-- DQC ALIGN_B (R52, R167): a B4 header, or an EUP of 5 to 7, faults. -/
def execDqcAlignB (i : Issue) (s : State) : Host.Outcome State Fault Refusal :=
  archOp? .dqc i s (fun sc =>
    let n := i.f.src1.toNat
    let h := rdG i sc (immBits i.f 3 5)
    if dqcMode i.f ≠ 1 ∨ !hdrFmtB8 h ∨ hdrBadEup h then none
    else some (sc.arch.setV i.f.dest.toNat
      (alignB (rdV i sc n) (rdV i sc (n + 1)) (rdV i sc (n + 2)) (rdV i sc (n + 3)) (hdrEup h) (immBits i.f 0 3))))

/-- DQC SCALE (R65, R167). -/
def execDqcScale (i : Issue) (s : State) : Host.Outcome State Fault Refusal :=
  archOp? .dqc i s (fun sc =>
    let h := rdG i sc (immBits i.f 0 5)
    if dqcMode i.f ≠ 2 ∨ hdrBadEup h then none
    else some (sc.arch.setV i.f.dest.toNat
      (scaleLanes (rdV i sc i.f.src1.toNat) (rdV i sc i.f.src2.toNat) h (immBits i.f 5 4))))

def execCvt (i : Issue) (s : State) : Host.Outcome State Fault Refusal :=
  archOp .cvt i s (fun sc =>
    let op := immBits i.f 0 4
    sc.arch.setVs i.f.dest.toNat (convert op (rdVs i sc i.f.src1.toNat (convertSrc op))))

/-! ### Matrix tiles (R192) -/

/-- An MMA: every row of the destination tile from its row function; flags[0] starts from zero. -/
def mma (c : Opcode) (row : W2048 → W2048 → W2048 → Nat → W2048) (i : Issue) (s : State) :
    Host.Outcome State Fault Refusal :=
  archOp c i s (fun sc =>
    let n := i.f.dest.toNat
    let a := rdV i sc i.f.src1.toNat
    let b := rdV i sc i.f.src2.toNat
    sc.arch.setRows n 0 ((List.range 64).map (fun r =>
      row a b (if fieldFlag i.f 0 then 0#2048 else sc.arch.t_ i.lcore n r) r)))

def execMma8 (i : Issue) (s : State) : Host.Outcome State Fault Refusal := mma .mma8 mma8Row i s
def execMma4 (i : Issue) (s : State) : Host.Outcome State Fault Refusal := mma .mma4 mma4Row i s
def execMmah (i : Issue) (s : State) : Host.Outcome State Fault Refusal := mma .mmah mmahRow i s

/-! ### Vector unit (R194 to R197) -/

def execVfma (i : Issue) (s : State) : Host.Outcome State Fault Refusal :=
  archOp .vfma i s (fun sc =>
    let d := i.f.dest.toNat
    sc.arch.setV d (ofLanes ((List.range 64).map (fun l =>
      fFma (elem 32 (rdV i sc i.f.src1.toNat) l) (elem 32 (rdV i sc i.f.src2.toNat) l) (elem 32 (rdV i sc d) l)))))

/-- VALU (R195): operations 0 to 20 lane by lane, then BCAST, GBC and TRD. -/
def execValu (i : Issue) (s : State) : Host.Outcome State Fault Refusal :=
  archOp .valu i s (fun sc =>
    let op := immBits i.f 0 6
    let k := immBits i.f 6 6
    let x := i.f.src1.toNat
    let y := i.f.src2.toNat
    sc.arch.setV i.f.dest.toNat
      (if op = 21 then splat (elem 32 (rdV i sc x) k)
       else if op = 22 then splat ((rdG i sc y).extractLsb' 0 32)
       else if op = 23 then sc.arch.t_ i.lcore x k
       else zipLanes (valuLane op) (rdV i sc x) (rdV i sc y)))

/-- VRED (R196): operation 4, ANY, writes a predicate. -/
def execVred (i : Issue) (s : State) : Host.Outcome State Fault Refusal :=
  archOp .vred i s (fun sc =>
    let op := immBits i.f 0 3
    let v := rdV i sc i.f.src1.toNat
    if op = 4 then sc.arch.setP i.f.dest.toNat (v != 0#2048) else sc.arch.setV i.f.dest.toNat (vred op v))

def execVexp (i : Issue) (s : State) : Host.Outcome State Fault Refusal :=
  archOp .vexp i s (fun sc => sc.arch.setV i.f.dest.toNat (vexp (fieldFlag i.f 0) (rdV i sc i.f.src1.toNat)))

def execVrsq (i : Issue) (s : State) : Host.Outcome State Fault Refusal :=
  archOp .vrsq i s (fun sc => sc.arch.setV i.f.dest.toNat (vrsq (rdV i sc i.f.src1.toNat)))

/-! ### Selection and sampling (R198 to R200) -/

def execTopk (i : Issue) (s : State) : Host.Outcome State Fault Refusal :=
  archOp .topk i s (fun sc =>
    let d := i.f.dest.toNat
    let x := i.f.src1.toNat
    let m := rdV i sc i.f.src2.toNat
    let w := immBits i.f 7 3
    let r := topk (immBits i.f 0 7) (fieldFlag i.f 0) (entriesOf (rdV i sc d) (rdV i sc (d + 1)))
      (entriesOf (rdV i sc x) (rdV i sc (x + 1))) (fun l => m.getLsbD (64 * w + l))
    sc.arch.setVs d [r.1, r.2])

def execSamp (i : Issue) (s : State) : Host.Outcome State Fault Refusal :=
  archOp? .samp i s (fun sc =>
    let x := i.f.src1.toNat
    let y := i.f.src2.toNat
    let par := rdG i sc (y + 2)
    (samp (fieldFlag i.f 0) ((entriesOf (rdV i sc x) (rdV i sc (x + 1))).take (immBits i.f 0 7)) (rdG i sc y)
      ((rdG i sc (y + 1)).extractLsb' 0 32) (par.extractLsb' 0 32) (par.extractLsb' 32 32)).map
      (fun r => sc.arch.setG i.f.dest.toNat r))

/-! ### Digest and fair copy (R207, R209) -/

def execDgst (i : Issue) (s : State) : Host.Outcome State Fault Refusal :=
  issue .dgst i s (fun sc t =>
    let d := dgst sc.digest (rdV i sc i.f.src1.toNat)
    .done (t.setScribe i.lcore { sc with digest := d, arch := sc.arch.setG i.f.dest.toNat d }))

/-- FCPY (R209, R210): 64 columns of fair copy from the codes in SRAM. No address beyond SRAM_RANGE faults; where it is not 64-byte
aligned, as it must be, the manual states no result (log entry 102). -/
def execFcpy (i : Issue) (s : State) : Host.Outcome State Fault Refusal :=
  issue .fcpy i s (fun sc t =>
    let n := i.f.src1.toNat
    let h := rdG i sc i.f.src2.toNat
    let base := rdA i sc (immBits i.f 0 4)
    let b8 := hdrFmtB8 h
    if b8 && (n = 63 || hdrBadEup h) then .fault fEncoding 0#64
    else if 0x180000 < base.toNat + 131072 then .fault fSram base
    else if sramReadWaits sc (offset60 base) 131072 || (b8 && scoreboard t i.lcore [⟨.v, n + 1, 1⟩]) then .wait
    else
      let ms := if b8 then slice8 (rdV i sc n) (rdV i sc (n + 1)) else slice4 (rdV i sc n)
      let d := driveOf h ms
      let q := immBits i.f 4 3
      let code : Nat → Byte := fun k => Mem.read sc.sram (offset60 base + k)
      let out := ofLanes ((List.range 64).map (fun l => w32 (fcColumn h d code (64 * q + l))))
      if offset60 base % 64 = 0 then .done (t.setScribe i.lcore { sc with arch := sc.arch.setV i.f.dest.toNat out })
      else
        .done ((t.setScribe i.lcore { sc with
          arch := sc.arch.setV i.f.dest.toNat (Config.freeReg2048 t.freeCtr 2 i.f.dest.toNat i.lcore) }).nextFree))

end Sys2Proof.Machine
end

