-- ==== Sys2Proof/Machine/Integrity.lean ====
section
/-! DEFINITION. Silent errors: sampled duplicate execution, taint reports, proof rounds, and the thaw of frozen requests
(R256 to R258, R261 to R268, R274). -/

namespace Sys2Proof.Machine

/-! ### Taint reports (R264) -/

/-- Requests of a partition with anything committed at or after a stroke. -/
def taintSlots (s : State) (p first : Nat) : List (Nat × Nat) :=
  (s.integ.commits.filter (fun c => c.part == p && decide (first ≤ c.stroke))).map (fun c => (c.slot, c.gen))

/-- Commits of the partition at or after a stroke that the buddy mirrors (R264). -/
def taintMirrored (s : State) (p first : Nat) : Bool :=
  s.integ.commits.any (fun c => c.part == p && c.mirrored.any (fun n => decide (first ≤ n)))

def jobIdOf (s : State) (p : Nat) : Nat := match (s.part p).plan with
  | some pl => pl.jobId
  | none => 0

/-- A report is made: it waits to be written, up to 16 of them. -/
def addTaint (s : State) (source result p : Nat) (prev : Option Nat) (c array first : Nat) : State :=
  let g := s.integ
  let t : Taint := { seq := g.taintSeq, source := source, result := result, part := p,
                     mirrored := taintMirrored s p first, prev := prev, pcore := c, array := array,
                     jobId := jobIdOf s p, first := first, last := s.stroke.number, slots := taintSlots s p first }
  { s with integ := { g with
      taintSeq := (g.taintSeq + 1) % 2 ^ 32, taints := if g.taints.length < 16 then g.taints ++ [t] else g.taints } }

/-- Bytes of a report with its first `n` entries, filled to a multiple of 64. -/
def taintBytes (t : Taint) (n : Nat) : List Byte :=
  let flags := (if t.mirrored then 1 else 0) + (if n < t.slots.length then 2 else 0) + (if t.prev.isSome then 4 else 0)
  let head := leBytes 4 t.seq ++ leBytes 1 t.source ++ leBytes 1 t.result ++ leBytes 1 t.part ++ leBytes 1 flags
    ++ leBytes 2 t.pcore ++ leBytes 2 t.array ++ leBytes 4 t.jobId ++ leBytes 8 t.first ++ leBytes 8 t.last
    ++ leBytes 4 n ++ leBytes 4 (t.prev.getD 0xFFFFFFFF) ++ List.replicate 24 0#8
  let body := (t.slots.take n).flatMap (fun (m, g) => leBytes 2 m ++ leBytes 2 g ++ List.replicate 4 0#8)
  head ++ body ++ List.replicate ((64 - 8 * n % 64) % 64) 0#8

/-- Length of the taint ring in bytes; 0 disables reports (R274). -/
def taintLen (s : State) : Nat :=
  let k := s.field pgInteg 0x078 0 16
  if k = 0 then 0 else 1024 * max 4 k

/-- Free bytes of the ring, in whole reports of 64. -/
def taintRoom (s : State) : Nat :=
  let used := (s.integ.taintProd + 2 ^ 32 - (s.reg pgInteg 0x080).toNat) % 2 ^ 32
  (taintLen s - used) / 64 * 64

/-- Bytes into a ring at `base`, from offset `pos`, wrapping at its end. -/
def ringWrite (s : State) (base len pos : Nat) (bs : List Byte) : State :=
  let at_ := pos % len
  hostWrite (hostWrite s (base + at_) (bs.take (len - at_))) base (bs.drop (len - at_))

/-- TAINT_REPORT_WRITE (R264). -/
def execTaintReportWrite (s : State) : Host.Outcome State Fault Refusal :=
  match s.integ.taints with
  | [] => .next s
  | t :: rest =>
    if taintLen s = 0 || !s.pf.bme then .next s
    else if taintRoom s < 64 then .next (raise s pgInteg 9)
    else
      let n := min t.slots.length ((taintRoom s - 64) / 8)
      let bs := taintBytes t n
      let s1 := ringWrite s (s.pair pgInteg 0x070 0x074 / 64 * 64) (taintLen s) s.integ.taintProd bs
      .next (raiseAll { s1 with integ := { s1.integ with
        taints := rest, taintProd := (s1.integ.taintProd + bs.length) % 2 ^ 32 } } [(pgInteg, 2 ^ 4), (pgFunc t.part, 2 ^ 2)])

/-- TAINT_CONS_WRITE (R264, R274). -/
def execTaintConsWrite (src : Nat) (data : W32) (s : State) : Host.Outcome State Fault Refusal :=
  .next (orderWrite s src pgInteg 0x080 data id)

/-! ### Sampled duplicate execution (R261 to R263) -/

def dropCheck (s : State) (x : Check) : State :=
  { s with integ := { s.integ with checks := s.integ.checks.filter (fun y => y.id != x.id) } }

/-- The digests agree: the sample matches. The last of the forced samples that match ends the report that is pending, as transient unless
the unit's limit makes it permanent. -/
def sampleMatches (s : State) (x : Check) : State :=
  let c := s.pcore x.pcore
  let s1 := s.setPcore x.pcore { c with lastSample := x.stroke, sampleRuns := c.sampleRuns - 1 }
  match c.taintOpen with
  | some (seq, first) =>
    if c.sampleRuns ≤ 1 then
      let perm := isPermanent s1 (.core x.pcore) false
      let s2 := s1.setPcore x.pcore { s1.pcore x.pcore with taintOpen := none }
      classifyUnit (addTaint s2 1 (if perm then 2 else 1) x.part (some seq) x.pcore 0xFFFF first) x.part (.core x.pcore) false
    else s1
  | none => s1

/-- A checker that was wrong is fenced as a permanent core-logic fault; nothing is reported against the job (R263). -/
def fenceChecker (s : State) (c : Nat) : State := fenceCore (raise (notePermanent s []) pgInteg 11) c true

/-- Two checkers agree that the sampled core was wrong: reported at once, and classified after four further samples, or by the first
further mismatch. -/
def sampleWrong (s : State) (x : Check) : State :=
  let c := s.pcore x.pcore
  let start := match (s.part x.part).plan with
    | some pl => pl.startAt
    | none => 0
  match c.taintOpen with
  | none =>
    let first := max c.lastSample start
    let s1 := s.setPcore x.pcore { c with sampleRuns := 4, taintOpen := some (s.integ.taintSeq, first) }
    addTaint s1 1 0 x.part none x.pcore 0xFFFF first
  | some (seq, first) =>
    let s1 := s.setPcore x.pcore { c with sampleRuns := 0, taintOpen := none }
    classifyUnit (addTaint s1 1 2 x.part (some seq) x.pcore 0xFFFF first) x.part (.core x.pcore) true

/-- Another checker runs the same trace; the comparison waits until one is free. -/
def anotherChecker (s : State) (x : Check) (first : Nat × List W64) : State :=
  match (freeCheckers s x.part).filter (fun k => k != first.1) with
  | [] => s
  | k :: _ => { s with integ := { s.integ with
      checks := s.integ.checks.map (fun y => if y.id = x.id then { y with first := some first, checker := k } else y) } }

/-- SAMPLE_COMPARE (R263): a checker has finished with the digests `found`, one for each trace. After a mismatch a second checker runs the
same traces. DESIGN CHOICE (log entry 104): where the second agrees with neither, of which R263 says nothing, one more checker runs them. -/
def execSampleCompare (id : Nat) (found : List W64) (s : State) : Host.Outcome State Fault Refusal :=
  match s.integ.checks.find? (fun x => x.id == id) with
  | none => .next s
  | some x =>
    let agrees := found == x.traces.map (·.digest)
    match x.first with
    | none => if agrees then .next (sampleMatches (dropCheck s x) x) else .next (anotherChecker s x (x.checker, found))
    | some (k, ds) =>
      if agrees then .next (fenceChecker (sampleMatches (dropCheck s x) x) k)
      else if found = ds then .next (sampleWrong (dropCheck s x) x)
      else .next (anotherChecker s x (k, ds))

/-! ### Proof rounds (R265 to R268) -/

def proofEn (s : State) : Bool := s.sec.lcState == 1 || (s.reg pgInteg 0x044).getLsbD 28

/-- The mark of a SPARE core that serves a proof, among `Integ.provers`. -/
def proofKey : Nat := 2 ^ 21

/-- A core that is proved: good and not FENCED (R267). -/
def provable (s : State) (c : Nat) : Bool := decide (c < numPcores) && (s.pcore c).kind != .bad && (s.pcore c).kind != .fenced

/-- The core after `c` in ascending order that is proved, from the lowest again after the highest. -/
def coreAfter (s : State) (c : Nat) : Option Nat :=
  match allPcores.find? (fun x => decide (c < x) && provable s x) with
  | some x => some x
  | none => allPcores.find? (provable s)

/-- Takes the proofs of an APROOF that failed on core `c` from those to be repeated. -/
def Integ.retryOf (g : Integ) (c : Nat) : Option Retry := g.retries.find? (fun x => x.pcore == c)

/-- The round of a core begins; those queued by `INTEG.PROOF_NEXT` come first. A proof of an APROOF that failed on the core is its first
part, repeated with its seed (R268). -/
def newRound (s : State) (c : Nat) : State :=
  let g := s.integ
  let x := g.retryOf c
  { s with integ := { g with
      proof := some { pcore := c, left := List.range 33, busy := none, half := false, since := s.stroke.number, subst := none,
                      failed := (x.map (fun y => y.array)).toList, seed := (x.map (fun y => y.seed)).getD 0#64,
                      range := (x.map (fun y => y.range)).getD 0, result := none, prover := 0, before := numPcores,
                      forced := 0 },
      retries := match x with
        | some y => g.retries.erase y
        | none => g.retries
      provers := g.provers.filter (fun y => y.2 != proofKey) } }

def nextRound (s : State) (now : Option Nat) : State :=
  match s.integ.proofNext.dropWhile (fun c => !provable s c) with
  | c :: cs => newRound { s with integ := { s.integ with proofNext := cs } } c
  | [] =>
    let next := match now with
      | some c => coreAfter s c
      | none => allPcores.find? (provable s)
    match next with
    | some c => newRound { s with integ := { s.integ with proofNext := [] } } c
    | none => { s with integ := { s.integ with proof := none, proofNext := [] } }

/-- The partition whose job a core's own plan belongs to; 32 stands for none. -/
def proofPart (s : State) (c : Nat) : Nat := match (s.pcore c).kind with
  | .active => (s.pcore c).part
  | .taking => (s.pcore c).part
  | _ => 32

/-- A core that takes part in a replay waits with its proofs and samples (R260). -/
def inReplay (s : State) (c : Nat) : Bool := match s.job (proofPart s c) with
  | some j => j.replaying
  | none => false

/-- An array with a recorded tile that is in service can be proved; another's part is left out. -/
def hasProof (s : State) (c n : Nat) : Bool :=
  if n = 32 then true
  else
    let a := s.array (32 * c + n)
    a.resState == .resident && a.recOk && !a.fenced && !a.broken

/-- A part may start: the core is idle or substituted, the part ends before the next boundary, and no array part runs above 105 degrees C
(R265 to R267), during a calibration of the array (R288), or while the tile waits for a reload (R277). -/
def partRuns (s : State) (r : ProofRun) (n : Nat) : Bool :=
  if n = 32 then (r.subst.isSome || idleCore s r.pcore) && fitsStroke s r.pcore 3072
  else
    let k := 32 * r.pcore + n
    let a := s.array k
    (r.subst.isSome || idleCore s r.pcore) && a.eval.isNone && !calibrates s k && !tileLost s a.resPart (some a.tile)
      && fitsStroke s r.pcore 648
      && decide (coreTemp s r.pcore ≤ 16 * 105)

/-- The part to start: one that failed once before the others. -/
def nextPart (s : State) (r : ProofRun) : Option Nat :=
  match r.failed with
  | n :: _ => if partRuns s r n then some n else none
  | [] => r.left.find? (partRuns s r)

/-- The evaluation of an array part: the drive values of R165 from the part's seed, at its range shift. -/
def partEval (s : State) (c n : Nat) (seed : W64) (rng : Nat) : Eval :=
  let a := s.array (32 * c + n)
  { kind := .part, lcore := numLcores, index := 0, dest := 0, drive := .narrow (proofDrives seed), range := rng, gain := a.gain,
    offs := a.offs, trims := a.trims, thresh := [], seed := seed, fair := false, wanted := false }

/-- A part starts on the core, with a seed from the proof counter, or with that of the run that failed; its prover is chosen (R265). -/
def startPart (s : State) (r : ProofRun) (n : Nat) : State :=
  let again := r.failed.contains n
  match proverFor s (proofPart s r.pcore) r.pcore (r.pcore :: (if again then [r.before] else [])) with
  | none => s
  | some v =>
    let g := s.integ
    let rng := if again then r.range else min 11 (s.field pgInteg 0x044 24 4)
    let s1 := { s with integ := { g with
        proof := some { r with busy := some n, half := false, prover := v, seed := if again then r.seed else g.proofSeed
                               range := rng, result := none },
        proofSeed := if again then g.proofSeed else g.proofSeed + 1,
        provers := if (s.pcore v).kind = .spare then g.provers ++ [(v, proofKey)] else g.provers } }
    if n = 32 then s1
    else
      let seed := if again then r.seed else g.proofSeed
      occupy s1 (32 * r.pcore + n) (partEval s1 r.pcore n seed rng) 1

/-- Every part has passed or been acted on: the next core's round begins. -/
def endRound (s : State) (c : Nat) : State :=
  let s1 := s.setPcore c { s.pcore c with lastProof := s.stroke.number }
  nextRound { s1 with integ := { s1.integ with proofRounds := sat 16 (s1.integ.proofRounds + 1) } } (some c)

/-- What a round does in an idle slot: leaves out the parts without a proof, starts a part, or runs the prover's half of the part that the
core has run. -/
def proofStep (s : State) (r : ProofRun) : State :=
  if !provable s r.pcore then nextRound s (some r.pcore)
  else if inReplay s r.pcore then s
  else
    match r.busy with
    | some _ =>
      if !provable s r.prover then { s with integ := { s.integ with proof := some { r with busy := none, half := false } } }
      else if !r.half && idleCore s r.prover && fitsStroke s r.prover 3072 then
        { s with integ := { s.integ with proof := some { r with half := true } } }
      else s
    | none =>
      let r1 : ProofRun := { r with left := r.left.filter (hasProof s r.pcore), failed := r.failed.filter (hasProof s r.pcore) }
      if r1.left.isEmpty then endRound s r.pcore
      else
        match nextPart s r1 with
        | some n => startPart s r1 n
        | none => { s with integ := { s.integ with proof := some r1 } }

/-- PROOF_PART (R265, R267): with PROOF_EN = 0 a proof that failed is still repeated. -/
def execProofPart (s : State) : Host.Outcome State Fault Refusal :=
  if !proofEn s && s.integ.retries.isEmpty && s.integ.proof.all (fun r => r.failed.isEmpty) then .next s
  else
    let s1 := if s.integ.proof.isNone then nextRound s none else s
    match s1.integ.proof with
    | none => .next s1
    | some r => .next (proofStep s1 r)

/-- The part passes (R266): an array's by its checks and the band about the ideal codes, the engine's by the two digests. -/
def partPasses (s : State) (r : ProofRun) (n : Nat) (own other : W64) : Bool :=
  if n = 32 then own == other
  else match r.result with
    | some (codes, ok, temp) => ok && codesPass s (32 * r.pcore + n) r.range (proofDrives r.seed) codes temp
    | none => false

/-- Both halves of the part that runs are complete. -/
def partComplete (r : ProofRun) (n : Nat) : Bool := r.half && (n == 32 || r.result.isSome)

def proofUnit (c n : Nat) : FaultUnit := if n = 32 then .core c else .array c n

/-- A part that failed twice, or passed its repeat, is classified, counted and reported (R268). -/
def proofFailed (s : State) (r : ProofRun) (n : Nat) (permanent : Bool) : State :=
  let p := proofPart s r.pcore
  let u := proofUnit r.pcore n
  let s1 := raise { s with integ := { s.integ with proofFails := sat 8 (s.integ.proofFails + 1) } } pgInteg 5
  let s2 := addTaint s1 2 (if isPermanent s1 u permanent then 2 else 1) p none r.pcore (if n = 32 then 0xFFFF else n)
    ((s.pcore r.pcore).lastProof + 1)
  let s3 := if permanent || decide (numPcores ≤ r.before) then s2
    else s2.setPcore r.before { s2.pcore r.before with sampleRuns := max 1 (s2.pcore r.before).sampleRuns }
  classifyUnit s3 p u permanent

/-- The part is over; with the last the round. -/
def partOver (s : State) (r : ProofRun) (n : Nat) : State :=
  let r1 : ProofRun := { r with busy := none, half := false, left := r.left.erase n, failed := r.failed.erase n }
  let s1 := { s with integ := { s.integ with
      proof := some r1, provers := s.integ.provers.filter (fun x => x.2 != proofKey) } }
  if r1.left.isEmpty then endRound s1 r.pcore else s1

/-- The first failure: the part is repeated with the same seed on another prover (R268). -/
def repeatPart (s : State) (r : ProofRun) (n : Nat) : State :=
  { s with integ := { s.integ with
      proof := some { r with busy := none, half := false, failed := [n], before := r.prover },
      provers := s.integ.provers.filter (fun x => x.2 != proofKey) } }

/-- PROOF_PART_JUDGE (R266, R268): both halves of part `n` are complete; `own` and `other` are the digests of the engine part on the core
and on its prover. -/
def execProofPartJudge (n : Nat) (own other : W64) (s : State) : Host.Outcome State Fault Refusal :=
  match s.integ.proof with
  | none => .next s
  | some r =>
    if r.busy ≠ some n || !partComplete r n then .next s
    else
      let pass := partPasses s r n own other
      if r.failed.contains n then .next (partOver (proofFailed s r n (!pass)) r n)
      else if pass then .next (partOver s r n)
      else .next (repeatPart s r n)

/-- The stroke at which the parts of a round that is under way are forced (R267). -/
def proofDue (s : State) (r : ProofRun) : Nat :=
  let last := (s.pcore r.pcore).lastProof
  (if last = 0 then r.since else last) + max 1024 (s.field pgInteg 0x044 0 24) + r.forced

/-- A substitute runs the role of a core for the stroke that begins, on that core's arrays; it is not free meanwhile (R255, R267). -/
def substitute (s : State) (r : ProofRun) (c : Nat) : State :=
  raise { s with integ := { s.integ with
    proof := some { r with forced := r.forced + 1, subst := some c }, provers := s.integ.provers ++ [(c, substKey)] } } pgInteg 8

/-- PROOF_DEADLINE (R267): at a boundary past the deadline a substitute runs the core's role for one stroke, four times at most; then
PROOF_LATE is raised once. -/
def execProofDeadline (s : State) : Host.Outcome State Fault Refusal :=
  match s.integ.proof with
  | none => .next s
  | some r =>
    if !proofEn s || !atBoundary s || r.left.isEmpty || r.subst.isSome || inReplay s r.pcore
        || decide (s.stroke.number < proofDue s r) then .next s
    else if r.forced < 4 then
      match proverFor s (proofPart s r.pcore) r.pcore [r.pcore] with
      | some c => .next (substitute s r c)
      | none => .next { s with integ := { s.integ with proof := some { r with forced := r.forced + 1 } } }
    else if r.forced = 4 then
      .next (raise { s with integ := { s.integ with
        proof := some { r with forced := 5 }, proofLate := sat 8 (s.integ.proofLate + 1) } } pgInteg 6)
    else .next s

/-- PROOF_NEXT (R267, R274): a core above 1,151 or FENCED is ignored. -/
def execProofNext (src : Nat) (data : W32) (s : State) : Host.Outcome State Fault Refusal :=
  .next (orderWrite s src pgInteg 0x048 data (fun t =>
    let c := (data.extractLsb' 0 11).toNat
    if data.getLsbD 31 && decide (c < numPcores) && (t.pcore c).kind != .fenced then
      { t with integ := { t.integ with proofNext := t.integ.proofNext ++ [c] } }
    else t))

/-! ### Thaw (R258) -/

/-- Every frozen request of the partition is eligible again from the next intake window. -/
def thawPart (s : State) (p : Nat) : State :=
  (slotsOf s p).foldl (fun t n => t.setSlot n { t.slot n with frozen := false }) s

/-- THAW (R258, R274): acts on the partition of `INTEG.FROZEN_SEL`. -/
def execThaw (src : Nat) (s : State) : Host.Outcome State Fault Refusal :=
  .next (orderWrite s src pgInteg 0x088 (0x80000000#32) (fun t => thawPart t (t.field pgInteg 0x084 0 5)))

end Sys2Proof.Machine
end

