-- ==== Sys2Proof/Machine/JobControl.lean ====
section
/-! DEFINITION. Job control messages between the devices of a block, and between buddies (R18, R148, R201, R216, R230, R259, R320, R322,
R324, R343). -/

namespace Sys2Proof.Machine

/-! ### The request list of the entry device (R18, R201, R216) -/

/-- A descriptor as far as a device that is not the entry device learns of it. -/
def listedDesc (e : ListMsg) : Desc :=
  { Desc.zero with
    kind := e.kind, flags := (if e.speculative then 1 else 0) + (if e.adapter.isSome then 2 else 0), priority := e.priority,
    adapter := e.adapter.getD 0, promptLen := e.promptLen, maxTokens := e.maxTokens, seed := e.seed, params := e.params }

/-- A request new to this device takes the slot that it has on the entry device; a registration also its handle entry. -/
def newListed (p : Nat) (s : State) (e : ListMsg) : State :=
  let s0 := if (s.slot e.slot).state = .free then s else freeSlot s p e.slot 0
  let map := match e.handle with
    | some h => if e.kind = 2 then [] else (s0.handle h).pages
    | none => []
  let y : Slot := { Slot.reset with part := p, gen := e.gen, state := listedState e, desc := listedDesc e, priority := e.priority }
  let y1 : Slot := { y with prefixLen := e.prefixLen, handle := e.handle, kvMap := map, lastListed := s.stroke.number }
  let s1 := s0.setSlot e.slot y1
  let s2 := match e.handle with
    | none => s1
    | some h =>
      if e.kind = 2 then newHandle s1 p h e.slot (listedDesc e)
      else s1.setHandle h { s1.handle h with users := (s1.handle h).users + 1 }
  initMap s2 p e.slot map

/-- An entry of the list: the request stands as the entry device says, with the pages of its positions, and its parameter entry. -/
def takeListed (p : Nat) (s : State) (e : ListMsg) : State :=
  if !ownSlot (s.part p) e.slot then s
  else
    let x := s.slot e.slot
    let s1 := if x.state = .free ∨ x.gen ≠ e.gen then newListed p s e else s
    let y := s1.slot e.slot
    let s2 := s1.setSlot e.slot { y with
      state := listedState e, nextSeq := e.delivered, position := e.position, priority := e.priority,
      promptDone := if e.prefill then e.position - e.prefixLen else e.promptLen, lastListed := s.stroke.number }
    let s3 := (takePages s2 p e.slot e.position e.positions).getD s2
    scratchWrite s3 p ((s3.reg (pgReq p) 0x094).toNat * 4096 + 256 * (e.slot - (s3.part p).cfg.sbase))
      (paramBytes (s3.slot e.slot) e.ctrl)

/-- The list of the step, fixed on a device that is not the entry device. -/
def takeList (s : State) (p : Nat) (es : List ListMsg) : State :=
  if !notEntry s p || !awaitsList s p then s
  else
    let mine := es.filter (fun e => ownSlot (s.part p) e.slot)
    let s1 := mine.foldl (takeListed p) s
    startScribes (s1.updJob p (fun j => { j with
      reqList := mine.map (fun e => entryOf e.slot e), listFixed := true, ordersDue := false })) p

/-- Slots whose requests have ended on the entry device. -/
def takeFreed (s : State) (p : Nat) (slots : List Nat) : State :=
  if !notEntry s p then s
  else (slots.filter (fun n => ownSlot (s.part p) n && (s.slot n).state != .free)).foldl (fun t n => freeSlot t p n 0) s

/-- An accepted cancel: the request's pages are freed at the next boundary (R230). A registration that has sealed here meanwhile is undone:
what it committed lies behind the cancel point. -/
def takeCancel (s : State) (p n gen : Nat) : State :=
  let x := s.slot n
  if !notEntry s p || !ownSlot (s.part p) n then s
  else if x.state ≠ .free then
    if x.gen = gen ∧ x.cancel = none then s.setSlot n { x with cancel := some (s.stroke.number, s.stroke.count) } else s
  else
    match (handlesOf s p).find? (fun h =>
      let y := s.handle h
      y.state == .sealed && y.slot == n && y.slotGen == gen && y.users == 0) with
    | some h => freeHandle s h
    | none => s

/-- Tokens that the entry device has committed: the request goes on with the last of them (R18). -/
def takeToken (p : Nat) (s : State) (t : TokenMsg) : State :=
  let x := s.slot t.slot
  if ownSlot (s.part p) t.slot && x.state != .free && x.gen == t.gen then
    s.setSlot t.slot { x with lastToken := t.token, nextSeq := t.seq + 1 }
  else s

def takeTokens (s : State) (p : Nat) (ts : List TokenMsg) : State := if notEntry s p then ts.foldl (takeToken p) s else s

/-! ### Registrations and releases of the buddy (R322) -/

/-- A registration taken in by the buddy: built here under the same handle value, without a completion of its own. -/
def takeRegistration (s : State) (p : Nat) (b : List Byte) (h gen count29 : Nat) : State :=
  let d := decodeDesc b
  match freeSlotList s p with
  | [] => s
  | n0 :: ns =>
    if !pairedNow s p || notEntry s p || (s.handle h).state != .free || d.kind ≠ 2 then s
    else
      let n := pickFrom s 0 (n0 :: ns)
      let old := s.slot n
      let y : Slot := { Slot.reset with state := SlotState.building, gen := (old.gen + 1) % 65536, part := p, desc := d }
      let y1 : Slot := { y with priority := d.priority, lastListed := s.stroke.number, handle := some h }
      let y2 : Slot := { y1 with lastEndGen := old.lastEndGen, lastEndSeq := old.lastEndSeq, reserved := descPages s p 0 d }
      let s1 := newHandle { s.setSlot n y2 with freeCtr := s.freeCtr + 4 } p h n d
      initMap (s1.setHandle h { s1.handle h with gen := gen % 65536, count29 := count29 % 2 ^ 29, quiet := true }) p n []

/-- A release of a handle, by its index and generation: from the buddy's entry device, or from that of this block (R240, R241, R322). -/
def takeRelease (s : State) (p h gen : Nat) : State :=
  let x := s.handle h
  if !(pairedNow s p || notEntry s p) || x.part ≠ p || x.gen ≠ gen then s
  else if (x.state = .sealed ∨ x.state = .stale) ∧ x.users = 0 then retireHandle s h 0
  else if x.state = .sealed then s.setHandle h { x with state := .releasing }
  else s

/-- The buddy has sealed a handle. -/
def takeSealed (s : State) (p h gen : Nat) : State :=
  let x := s.handle h
  if x.part = p ∧ x.gen = gen ∧ x.state ≠ .free then payOwed (s.setHandle h { x with peerSealed := true }) p h else s

/-! ### Adoption by the buddy (R320, R323, R324) -/

/-- A request that the buddy has adopted leaves: on the entry device with an ADOPTED entry of its old slot and generation. -/
def leaveAdopted (p : Nat) (s : State) (n : Nat) : State :=
  let x := s.slot n
  if x.state = .free ∨ x.part ≠ p then s
  else
    let s1 := if notEntry s p then s else complete s p false (slotEntry s n 11 0 x.desc.hostTag s.stroke.number)
    let s2 := freeSlot s1 p n 0
    s2.setSlot n { s2.slot n with lastEndGen := none }

/-- A request without a standby scroll ends with END 4 on the primary scroll. -/
def endUnmirrored (p : Nat) (s : State) (n : Nat) : State :=
  let x := s.slot n
  if x.state = .free ∨ x.state = .building ∨ x.desc.standbyAddr ≠ 0 ∨ notEntry s p = true then s
  else terminate s p n 4 s.stroke.number

/-- The broken job begins no further step; what it has staged is discarded. -/
def breakJob (s : State) (p : Nat) : State :=
  match (s.part p).plan, s.job p with
  | some pl, some j =>
    let s1 := { pl.lcores.foldl restartScribe (releaseProver s p) with freeCtr := s.freeCtr + 1 }
    s1.setJob p { endStepOf j with broken := true, inserting := false, inserted := none, ordersDue := false }
  | _, _ => s

/-- `LINK.PAIR_CFG.EN` of a partition is cleared (R324). -/
def clearPairEn (s : State) (p : Nat) : State :=
  { s with regs := Tbl.set s.regs (0x2020 * 4096 + 0x12C + 2 ^ 32 * (1 + p)) (s.jobReg p 0x12C &&& ~~~(1#32)) }

def takeAdopted (s : State) (p : Nat) (slots : List Nat) : State :=
  let s1 := slots.foldl (leaveAdopted p) s
  let s2 := (slotsOf s1 p).foldl (endUnmirrored p) s1
  setPair (clearPairEn (breakJob s2 p) p) p Pair.unpaired

/-! ### Replays, program faults and resets (R148, R259, R343) -/

/-- The partner's held step, for a replay here while both serve the same edition (R259, R293). -/
def takeReplay (s : State) (p : Nat) (ins : Insert) : State :=
  if pairedNow s p && sameEdition (s.part p) then s.updJob p (fun j => { j with inserted := some ins }) else s

/-- The buddy gives back what its inserted step staged for Q. -/
def takeReturned (s : State) (p : Nat) (ok : Bool) (items : List Item) : State :=
  s.updJob p (fun j => if j.replaying then { j with returned := some (ok, items) } else j)

/-- A program fault is confirmed on another device of the block: the job halts here too. -/
def takeProgFault (s : State) (p : Nat) : State := match s.job p with
  | some j => if multiDevice j then haltProgram s p j else s
  | none => s

/-- The partner's report, in which mirrored commits fall, is written here too (R264): up to 16 reports wait. -/
def takeTaint (s : State) (p : Nat) (t : TaintMsg) : State :=
  let x : Taint := { seq := t.seq, source := t.source, result := t.result, part := p, mirrored := true, prev := t.prev,
                     pcore := t.pcore, array := t.array, jobId := t.jobId, first := t.first, last := t.last, slots := t.slots }
  let g := s.integ
  if (s.part p).pair.state = .unpaired ∨ 16 ≤ g.taints.length then s
  else { s with integ := { g with taints := g.taints ++ [x] } }

/-- JOB_CONTROL_MESSAGE: one for a partition that is not there, or runs no job, does nothing. -/
def execJobControlMessage (part : Nat) (m : JobMsg) (s : State) : Host.Outcome State Fault Refusal :=
  if (s.job part).isNone then .next s
  else
    match m with
    | .list es => .next (takeList s part es)
    | .freed slots => .next (takeFreed s part slots)
    | .tokens ts => .next (takeTokens s part ts)
    | .taint t => .next (takeTaint s part t)
    | .cancel slot gen => .next (takeCancel s part slot gen)
    | .reset => .next (beginReset s part 4 false true)
    | .resetDone => .next (s.updJob part (fun j => { j with peersDue := false }))
    | .registration desc handle gen count29 => .next (takeRegistration s part desc handle gen count29)
    | .sealed handle gen => .next (takeSealed s part handle gen)
    | .release handle gen => .next (takeRelease s part handle gen)
    | .adopted slots => .next (takeAdopted s part slots)
    | .replay es special grants payloads =>
      .next (takeReplay s part { list := es, special := special, grants := grants, payloads := payloads })
    | .progFault => .next (takeProgFault s part)
    | .returned ok items => .next (takeReturned s part ok items)

end Sys2Proof.Machine
end

