-- ==== Sys2Proof/Machine/Links.lean ====
section
/-! DEFINITION. Avgon links and the torus: ports, training, route tables, packets, coordinates and growth (R299 to R315, R326,
R327). -/

namespace Sys2Proof.Machine

/-! ### Route tables (R311, R326, R327) -/

/-- New route tables are installed (R311): VERSION wraps, UPDATES saturates; DETOUR where a direction has newly failed. -/
def installRoutes (old s : State) : State :=
  let k := s.link
  let detour := (List.range 6).any (fun d => dirFailed s d && !dirFailed old d)
  raiseAll { s with link := { k with rtVersion := (k.rtVersion + 1) % 65536, rtUpdates := sat 16 (k.rtUpdates + 1) } }
    [(pgLink 0, if detour then 2 ^ 8 + 2 ^ 9 else 2 ^ 8)]

/-- A port changes: it is announced, new routes hold here, what waited at a port that serves no more goes by them, and pairs that hang on
the ports move (R311, R319). -/
def portChanged (old s : State) : State := pairSteps (rerouteWaiting (postAnnouncement (installRoutes old s)))

/-- A port that was UP goes DOWN (R301). -/
def dropPort (s : State) (n : Nat) (los : Bool) : State :=
  let x := s.port n
  let s1 := s.setPort n { x with state := .down, los := los, downs := sat 16 (x.downs + 1), nakPend := false, replays := 0 }
  portChanged s (raise s1 (pgLink n) 1)

/-! ### Blocks (R300, R301) -/

def failedReplays : Nat := 3

/-- What a block does to the port that receives it, before the port's own next block (R301): one with a good CRC and the next SEQ delivers its
slots, its credits and its ACK; any other is discarded, and a NAK is due until the blocks come in order again. -/
def receiveBlock (x : Port) (bs : List Byte) : Port :=
  if !blockCrcOk bs then { x with crcFail := sat 16 (x.crcFail + 1), nakPend := true }
  else if blockSeq bs ≠ (x.rxSeq + 1) % 4096 then { x with nakPend := true }
  else acceptBlock { x with
    rxSeq := blockSeq bs, nakPend := false, ackSeq := blockAck bs,
    replays := if blockAck bs = x.ackSeq then x.replays else 0 } bs

/-- A port takes a block as one in order. -/
def inOrder (x : Port) (bs : List Byte) : Bool := blockCrcOk bs && blockSeq bs == (x.rxSeq + 1) % 4096

/-- LINK_BLOCK_RECEIVED (R300, R301): the port takes the block, and sends its own next block in the same time, since both directions run
at one rate (DESIGN CHOICE, log entry 105). A NAK of the peer makes it resend from ACK + 1 instead; a fourth NAK for the same block,
after three failed replays, takes it DOWN. -/
def execLinkBlockReceived (port : Nat) (b : LinkBlock) (s : State) : Host.Outcome State Fault Refusal :=
  let x := s.port port
  if port ≥ 12 ∨ x.state ≠ .up ∨ s.pins.linkIdle then .next s
  else
    let y := receiveBlock { x with fec := sat 32 (x.fec + b.corrected) } b.bytes
    if inOrder x b.bytes = false ∨ blockNak b.bytes = false then .next (s.setPort port (sendBlock y))
    else if failedReplays ≤ y.replays then .next (dropPort (s.setPort port y) port y.los)
    else .next (s.setPort port { y with replays := y.replays + 1, replay := sat 16 (y.replay + 1) })

/-- LINK_PORT_DOWN (R301). -/
def execLinkPortDown (port : Nat) (los : Bool) (s : State) : Host.Outcome State Fault Refusal :=
  if port < 12 ∧ (s.port port).state = .up then .next (dropPort s port los) else .next s

/-! ### Training (R307, R326) -/

/-- A port begins a training. -/
def trainPort (s : State) (n : Nat) : State :=
  let x := s.port n
  s.setPort n { x with state := .training, trains := sat 16 (x.trains + 1) }

/-- What training must find for the port to come UP (R307). -/
def trainingFits (s : State) (n : Nat) (r : Training) : Bool :=
  let d := (s.port n).dir
  r.profile == s.link.profile && r.racks == s.link.racks
  && portDir s.link.profile r.peerPort == oppositeDir d && decide (r.peerPort < 12)
  && (if d = 6 then s.link.buddyValid && r.coord == s.link.buddy && r.buddy == some s.link.coord
      else decide (d < 6) && r.coord == stepCoord s s.link.coord d)

/-- PORT_TRAINING_DONE (R299, R307). A port whose lanes fail stays DOWN; the SEQ numbers that a training begins with are open
(log entry 43). -/
def execPortTrainingDone (port : Nat) (r : Option Training) (s : State) : Host.Outcome State Fault Refusal :=
  let x := s.port port
  if port ≥ 12 ∨ x.state ≠ .training then .next s
  else
    match r with
    | none => .next (s.setPort port { x with state := .down })
    | some t =>
      let x1 := { x with peer := t.coord % 8192, peerPort := t.peerPort % 16, los := false }
      if !trainingFits s port t then .next (raise (s.setPort port { x1 with state := .wiringErr }) (pgLink port) 2)
      else
        let x2 := freshChannels x1 (s.openAt 0 4096) (s.openAt 1 4096)
        let s1 := { s.setPort port { x2 with state := .up } with
          freeCtr := s.freeCtr + 2, link := { s.link with lostDevices := s.link.lostDevices.filter (· != t.coord) } }
        .next (portChanged s (raise s1 (pgLink port) 0))

/-- AUTO_RETRAIN (R307): once a second, a port that is DOWN. -/
def execAutoRetrain (port : Nat) (s : State) : Host.Outcome State Fault Refusal :=
  if port < 12 ∧ (s.port port).state = .down ∧ s.pins.linkIdle = false then .next (trainPort s port) else .next s

/-- RETRAIN of a port: an UP port goes down for it; a DISABLED one stays so. -/
def retrainPort (s : State) (n : Nat) : State :=
  if s.pins.linkIdle then s
  else
    match (s.port n).state with
    | .disabled => s
    | .up => trainPort (dropPort s n (s.port n).los) n
    | .down | .training | .wiringErr => trainPort s n

/-- RETRAIN (R307, R326). -/
def execRetrain (src port : Nat) (s : State) : Host.Outcome State Fault Refusal :=
  if port < 12 ∧ canWrite s src (pgLink port) = true then .next (retrainPort s port) else .next s

/-- `PCTRL.DISABLE` (R326). -/
def disablePort (s : State) (n : Nat) (on : Bool) : State :=
  let x := s.port n
  if on then
    match x.state with
    | .disabled => s
    | .up => portChanged s (raise (s.setPort n { x with state := .disabled, nakPend := false, replays := 0 }) (pgLink n) 1)
    | .down | .training | .wiringErr => s.setPort n { x with state := .disabled }
  else
    match x.state with
    | .disabled => s.setPort n { x with state := .down, downs := sat 16 (x.downs + 1) }
    | .up | .down | .training | .wiringErr => s

/-- PORT_DISABLE: a write of `LINK.PCTRL` (R326). -/
def execPortDisable (src port : Nat) (data : W32) (s : State) : Host.Outcome State Fault Refusal :=
  if 12 ≤ port then .next s
  else .next (orderWrite s src (pgLink port) 0x048 data (fun t =>
    let t1 := disablePort t port (data.getLsbD 0)
    if data.getLsbD 1 then retrainPort t1 port else t1))

/-! ### Announcements and lost devices (R311, R312) -/

/-- Devices that a detour from this device passes through, around direction `d`. -/
def detourDevices (s : State) (d : Nat) : List Nat :=
  if !dirFailed s d then []
  else
    match detourDir s d with
    | none => []
    | some e =>
      let a := stepCoord s s.link.coord e
      [a, stepCoord s a d]

/-- A route of the job on partition `p` leads through a device: one of its block, whose devices lie on every dimension-ordered route
that stays inside it (R310), or one on a detour that this device takes to a neighbour of the block. -/
def routeThrough (s : State) (j : Job) (dev : Nat) : Bool :=
  decide (1 < j.block.length)
  && (j.block.contains dev
      || (List.range 6).any (fun d => j.block.contains (stepCoord s s.link.coord d) && (detourDevices s d).contains dev))

/-- The step of a job in progress becomes suspect for every request, under check code 15. -/
def suspectPeer (s : State) (p pindex : Nat) : State :=
  match s.job p with
  | some j =>
    if j.inStep then failCheck s p { check := 15, unit := .peer, reqs := .all, pindex := pindex, index := 0, cause := 0 }
    else s
  | none => s

/-- ROUTE_ANNOUNCEMENT (R311, R312): each announcement is forwarded once. -/
def execRouteAnnouncement (id : Nat) (lost : Option Nat) (s : State) : Host.Outcome State Fault Refusal :=
  if s.link.announced.contains id ∨ s.pins.linkIdle then .next s
  else
    let s1 := { s with link := { s.link with announced := s.link.announced ++ [id] } }
    match lost with
    | none => .next (rerouteWaiting (postAnnouncement (installRoutes s s1)))
    | some dev =>
      let hit := s.parts.filter (fun (_, x) => match x.job with
        | some j => routeThrough s j dev
        | none => false)
      let s2 := { s1 with link := { s1.link with lostDevices := dev :: s1.link.lostDevices.filter (· != dev) } }
      .next (hit.foldl (fun t (p, _) => suspectPeer t p 0) (rerouteWaiting (postAnnouncement (installRoutes s s2))))

/-! ### Packets (R302 to R304, R313) -/

/-- The partition whose loaded job has an identifier. -/
def partOfJob (s : State) (job : Nat) : Option Nat :=
  (s.parts.find? (fun (_, x) => match x.plan with
    | some pl => pl.jobId == job && x.job.isSome
    | none => false)).map (·.1)

/-- STEPTAG of a packet is the job's step, or the step it replays (R112). -/
def stepTagOk (j : Job) (tag : Nat) : Bool :=
  tag % 4 == j.stepNo % 4 || (match j.hold with
    | some h => j.replaying && tag % 4 == h.stepNo % 4
    | none => false)

/-- What becomes of a packet addressed to this device (R304, R313): for a core it is delivered (the rows of the transfers carry what it holds)
or discarded and counted; one whose PCRC fails makes its destination's step suspect. -/
def takePacket (s : State) (h : BitVec 512) (data : List (BitVec 512)) : State :=
  let typ := hdrType h
  let noJob := { s with link := { s.link with nojob := sat 16 (s.link.nojob + 1) } }
  let bad := { s with link := { s.link with badcrc := sat 16 (s.link.badcrc + 1) } }
  if typ = 0 ∨ 12 ≤ typ then noJob
  else
    match partOfJob s (hdrJob h) with
    | none => if typ ≤ 3 then noJob else if pcrcOk h data then s else bad
    | some q =>
      let current := (s.job q).any (fun j => stepTagOk j (hdrStepTag h))
      if typ ≤ 3 ∧ current = false then noJob
      else if pcrcOk h data then s
      else suspectPeer bad q (hdrDstCore h)

/-- PACKET_RECEIVED (R302 to R304, R313): the packet at the head of a virtual channel of a port, once all its slots are there, leaves the
buffer, whose slots the peer gets back as credits. In transit it goes on over the link spine; at its destination it is taken. -/
def execPacketReceived (port vc : Nat) (s : State) : Host.Outcome State Fault Refusal :=
  let x := s.port port
  match headPacket (Tbl.getD x.rx vc []) with
  | none => .next s
  | some (h, data, rest) =>
    let gone := (Tbl.getD x.rx vc []).length - rest.length
    let s1 := s.setPort port { x with rx := Tbl.set x.rx vc rest, owed := Tbl.set x.owed vc (Tbl.getD x.owed vc 0 + gone) }
    .next (if hdrDst h = s.link.coord then takePacket s1 h data
      else sendPacket s1 (if x.dir < 6 then some (oppositeDir x.dir) else none) h data)

/-! ### Coordinates and growth (R306, R308) -/

/-- The management controller reaches the registers over the sideband: the page's domain runs (R422). -/
def sidebandReach (s : State) (page : Nat) : Bool :=
  s.pins.perstN && s.pins.pwrGood && !s.shut
  && (match pageKind page with
      | some (typ, _) => [1, 2, 3, 9, 10].contains typ || s.bring.doneMap.testBit 4
      | none => false)

/-- The sideband as a source of commands. -/
def srcSideband : Nat := 33

/-- COORD_WRITE (R306): accepted while every port is DOWN or DISABLED, with k from 1 to 64; the profile gives the ports their
directions (R305). -/
def execCoordWrite (src : Nat) (coord : W32) (buddy : Option W32) (s : State) : Host.Outcome State Fault Refusal :=
  let k := (coord.extractLsb' 16 7).toNat
  let idle := (List.range 12).all (fun n => (s.port n).state == .down || (s.port n).state == .disabled)
  if src ≠ srcSideband ∨ sidebandReach s (pgLink 0) = false ∨ idle = false ∨ k = 0 ∨ 64 < k then .next s
  else
    let profile := (coord.extractLsb' 24 2).toNat
    let l := { s.link with coord := (coord.extractLsb' 0 13).toNat, racks := k, valid := true, profile := profile }
    let l1 := match buddy with
      | some b => if profile = 3 then { l with buddy := (b.extractLsb' 0 13).toNat, buddyValid := true } else l
      | none => l
    let ports := (List.range 12).foldl (fun m n =>
      Tbl.set m n { Tbl.getD m n Port.reset with dir := portDir profile n }) s.ports
    .next { s with link := l1, ports := ports }

/-- A loaded job's block spans the whole X axis. -/
def spansX (s : State) : Bool := s.parts.any (fun (p, x) => x.plan.isSome && decide (sizeX s ≤ blockX s p))

/-- GROW_ARM (R308). -/
def execGrowArm (src racksNext growAt : Nat) (s : State) : Host.Outcome State Fault Refusal :=
  if src ≠ srcSideband ∨ sidebandReach s (pgLink 0) = false then .next s
  else
    let l := { s.link with racksNext := racksNext % 128, growAt := growAt % 2 ^ 64 }
    if spansX s ∨ growAt % 2 ^ 64 < s.stroke.number + 2 then
      .next (raise { s with link := { l with growArm := false } } (pgLink 0) 17)
    else .next { s with link := { l with growArm := true } }

/-- GROWTH (R308): at GROW_AT, k takes its new value. -/
def execGrowth (s : State) : Host.Outcome State Fault Refusal :=
  let l := s.link
  if l.growArm ∧ l.growAt ≤ s.stroke.number then
    .next (raise { s with link := { l with racks := l.racksNext, growArm := false } } (pgLink 0) 16)
  else .next s

end Sys2Proof.Machine
end

