-- ==== Sys2Proof/Machine/MemoryOps.lean ====
section
/-! DEFINITION. Loads and stores, DMA, KV accesses, state areas and the end of their transactions (R142, R144, R155, R169 to
R173, R206). A transaction's data move when it issues: the address scoreboard, the barrier epochs and the blotter leave
nothing that could tell the instant apart. -/

namespace Sys2Proof.Machine

/-! ### Vector registers and SRAM (R9, R169) -/

def bytesV (bs : List Byte) : W2048 := BitVec.ofNat 2048 (leNat bs)

/-- Effective address and written-back base of LDV and STV (R169). -/
def ldAddr (i : Issue) (sc : Scribe) : W64 × W64 :=
  let b := rdA i sc i.f.src1.toNat
  let moved := b + i.f.imm.signExtend 64
  if fieldFlag i.f 0 then (b, moved) else (moved, b)

def ldBase (i : Issue) (a : Arch) (x : W64) : Arch := if fieldFlag i.f 0 then a.setA i.f.src1.toNat x else a

def execLdv (i : Issue) (s : State) : Host.Outcome State Fault Refusal :=
  issue .ldv i s (fun sc t =>
    let r := ldAddr i sc
    let code := sramFault r.1 256
    if code ≠ 0 then .fault code r.1
    else if sramReadWaits sc (offset60 r.1) 256 then .wait
    else
      let v := bytesV (Mem.readBytes sc.sram (offset60 r.1) 256)
      .done (t.setScribe i.lcore { sc with arch := ldBase i (sc.arch.setV i.f.dest.toNat v) r.2 }))

def execStv (i : Issue) (s : State) : Host.Outcome State Fault Refusal :=
  issue .stv i s (fun sc t =>
    let r := ldAddr i sc
    let code := sramFault r.1 256
    if code ≠ 0 then .fault code r.1
    else if sramWriteWaits sc (offset60 r.1) 256 then .wait
    else
      let m := Mem.writeBytes sc.sram (offset60 r.1) (vBytes (rdV i sc i.f.src2.toNat))
      .done (t.setScribe i.lcore { sc with sram := m, arch := ldBase i sc.arch r.2 }))

/-! ### The scratch pool's ordering rule (R144) -/

/-- 4 KiB pages of a range. -/
def pagesOf (a n : Nat) : List Nat := (List.range ((a + n + 4095) / 4096 - a / 4096)).map (· + a / 4096)

def PageRec.empty : PageRec := { writer := none, readers := [] }

/-- An access by plan index `c` in epoch `e` breaks the rule: it meets another core's write of the epoch or, if it writes,
another core's read. -/
def PageRec.clash (r : PageRec) (c e : Nat) (write : Bool) : Bool :=
  (match r.writer with
    | some (w, we) => w != c && we == e
    | none => false)
  || (write && r.readers.any (fun (x, xe) => x != c && xe == e))

def orderClash (j : Job) (c a n : Nat) (write : Bool) : Bool :=
  (pagesOf a n).any (fun k => (Tbl.getD j.pageRecs k PageRec.empty).clash c j.barEpoch write)

/-- Records an access in the pages of its range. -/
def recordAccess (j : Job) (c a n : Nat) (write : Bool) : Job :=
  { j with pageRecs := (pagesOf a n).foldl (fun m k =>
      let r := Tbl.getD m k PageRec.empty
      let me := (c, j.barEpoch)
      Tbl.set m k (if write then { r with writer := some me }
        else if r.readers.contains me then r else { r with readers := me :: r.readers })) j.pageRecs }

/-! ### DMA (R170) -/

/-- The HBM spaces of a partition with their sizes (R142). -/
def scratchSpace (x : Part) : Nat × Nat := (1, match x.plan with
  | some pl => pl.hbmKib * 1024
  | none => 0)
def imageSpace (x : Part) : Nat × Nat := (3, match x.curImage with
  | some im => im.length
  | none => 0)
def poolSpace (x : Part) : Nat × Nat := (4, poolSize x)

/-- Bytes of an HBM space. -/
def hbmBytes (x : Part) (p sp a n : Nat) : List Byte :=
  match sp with
  | 1 => Mem.readBytes x.scratch a n
  | 3 => (match x.curImage with
      | some im => Mem.readBytes im.bytes a n
      | none => [])
  | _ => (List.range n).map (fun k => poolByte x p (a + k))

/-- Slots of the partition whose KV map words lie in bytes [off, off + n) of its scratch pool, which holds nothing else there; none where
anything else does (R216, R249). -/
def mapOwners (s : State) (p off n : Nat) : Option (List Nat) :=
  let c := (s.part p).cfg
  let size := 4 * layersOf s p * maxBlkOf s p
  let base := (s.reg (pgReq p) 0x09C).toNat * 4096
  if base ≤ off ∧ off + n ≤ base + size * c.scount then
    some ((List.range c.scount).filterMap (fun k =>
      if base + size * k < off + n ∧ off < base + size * (k + 1) then some (c.sbase + k) else none))
  else none

/-- The unit of an HBM location that a DMA reads, and the requests that an error there touches (R249, R255). -/
def dmaLoc (i : Issue) : Scribe → State → FaultUnit × SuspectSet := fun sc s =>
  let a := rdA i sc i.f.src2.toNat
  if space a = 1 then
    (.hbmScratch (offset48 a / 4096) 0, match mapOwners s sc.part (offset48 a) (immBits i.f 0 21) with
      | some ns => .slots ns
      | none => .all)
  else (.hbmImage 0, .all)

/-- Tiles of CURRENT that an uncorrectable read of the image's bytes [off, off + n) touches cannot be read any more (R277). -/
def loseTiles (s : State) (hw : HwCheck) (p off n : Nat) : State :=
  match hw, (s.part p).curImage with
  | .hbmUncorrectable _ _, some im =>
    let ts := (List.range im.ntile).filter (fun t =>
      decide (im.codeOff + 131072 * t < off + n) && decide (off < im.codeOff + 131072 * (t + 1)))
    ts.foldl (fun u t => loseTile u p t) s
  | _, _ => s

/-- A DMA between SRAM at a[src1] and HBM at a[src2], in the spaces that the instruction admits. -/
def dmaOp (c : Opcode) (i : Issue) (s : State) (toHbm : Bool) (spaces : Part → List (Nat × Nat)) :
    Host.Outcome State Fault Refusal :=
  .next (issueAt c i s (dmaLoc i) (fun sc t =>
    let a := rdA i sc i.f.src1.toNat
    let h := rdA i sc i.f.src2.toNat
    let n := immBits i.f 0 21
    let x := t.part sc.part
    let cs := sramFault a n
    let ch := hbmFault (spaces x) h n
    if cs ≠ 0 then .fault cs a
    else if ch ≠ 0 then .fault ch h
    else
      match t.job sc.part with
      | none => .wait
      | some j =>
        let lo := offset60 a
        let off := offset48 h
        if txWaits t sc then .wait
        else if (if toHbm then sramReadWaits sc lo n else sramWriteWaits sc lo n) then .wait
        else if space h = 1 ∧ orderClash j sc.pindex off n toHbm then .fault fOrder h
        else
          let t1 := if space h = 1 then t.setJob sc.part (recordAccess j sc.pindex off n toHbm) else t
          if toHbm then
            let y := t1.part sc.part
            let t2 := t1.setPart sc.part { y with scratch := Mem.writeBytes y.scratch off (Mem.readBytes sc.sram lo n) }
            .done (t2.setScribe i.lcore (noteOut (Mem.readBytes sc.sram lo n) (addTx sc .memory false lo n)))
          else
            let bs := hbmBytes x sc.part (space h) off n
            let t2 := if space h = 3 then loseTiles t1 i.hw sc.part off n else t1
            .done (t2.setScribe i.lcore (noteIn bs (addTx { sc with sram := Mem.writeBytes sc.sram lo bs } .memory true lo n)))))

def execDmar (i : Issue) (s : State) : Host.Outcome State Fault Refusal :=
  dmaOp .dmar i s false (fun x => [scratchSpace x, poolSpace x])

def execDmaw (i : Issue) (s : State) : Host.Outcome State Fault Refusal := dmaOp .dmaw i s true (fun x => [scratchSpace x])

/-- MIMG (R170): tiles that have become unreadable are read as they are, and the check decides the step (R277). -/
def execMimg (i : Issue) (s : State) : Host.Outcome State Fault Refusal := dmaOp .mimg i s false (fun x => [imageSpace x])

/-! ### KV pages (R171 to R173, R235, R239) -/

def kvPage (a : W64) : Nat := (a.extractLsb' 18 30).toNat
def kvByte (a : W64) : Nat := (a.extractLsb' 0 18).toNat

/-- The page is the partition's (R171). -/
def ownPage (x : Part) (k : Nat) : Bool := decide (x.pageBase ≤ k) && decide (k < x.pageBase + x.pagesTotal)

def KvPage.posOf (g : KvPage) (pos : Nat) : PosState := Tbl.getD g.pos pos .empty

/-- Position `pos` of page `k` as the step reads it (R16, R173): what the step staged, otherwise what is committed, otherwise
0. A staged position holds the bytes staged and 0 elsewhere. -/
def kvRead (x : Part) (j : Job) (k pos : Nat) : Mem :=
  let mine := j.items.filterMap (fun it => match it with
    | .kv _ pg ps off data _ => if pg = k ∧ ps = pos then some (off, data) else none
    | _ => none)
  if mine.isEmpty then
    match Tbl.get? x.pages k with
    | none => []
    | some g => if g.posOf pos = .empty then [] else Mem.writeBytes [] 0 (Mem.readBytes g.data (4096 * pos) 4096)
  else mine.foldl (fun m (off, data) => Mem.writeBytes m off data) []

/-- Bytes of a page from `off` on. -/
def kvBytes (x : Part) (j : Job) (k off n : Nat) : List Byte :=
  (List.range ((off + n + 4095) / 4096 - off / 4096)).flatMap (fun q =>
    let pos := off / 4096 + q
    let lo := max off (4096 * pos)
    let hi := min (off + n) (4096 * pos + 4096)
    Mem.readBytes (kvRead x j k pos) (lo - 4096 * pos) (hi - lo))

/-- The page that a KVAP of a slot writes: of a page that a handle shares, the request's private copy (R172, R239). -/
def kvTarget (s : State) (slot k : Nat) (g : Option KvPage) : Nat :=
  match g with
  | some g => (match g.owner with
      | .sealed h =>
        (match (s.handle h).pages.find? (fun (_, pg) => pg == k) with
          | some (key, _) => Tbl.getD (s.slot slot).kvMap key k
          | none => k)
      | _ => k)
  | none => k

/-- In a replay the results of a request outside Q have committed already, and what the replay stages for it is discarded
(R254): its states are not checked again. -/
def outsideReplay (j : Job) (slot : Nat) : Bool :=
  j.replaying && (match j.hold with
    | some h => !h.slots.contains slot
    | none => false)

/-- The bytes of an item, as they leave the core. -/
def itemBytes (it : Item) : List Byte := match it with
  | .record n token prob e => leBytes 2 n ++ leBytes 4 token ++ leBytes 4 prob ++ leBytes 1 e
  | .kv n page pos off data draft => leBytes 2 n ++ leBytes 4 page ++ leBytes 2 (4096 * pos + off) ++ leBytes 1 (if draft then 1 else 0) ++ data
  | .state n off data => leBytes 2 n ++ leBytes 2 off ++ data
  | .spec n up cut => leBytes 2 n ++ up.flatMap (leBytes 4) ++ cut.flatMap (leBytes 4)

/-- The core stages an item; those of requests whose cancel point has passed are left out of every comparison (R203, R255). -/
def noteItem (s : State) (it : Item) (sc : Scribe) : Scribe :=
  if (s.slot (itemSlot it)).cancel.isSome then sc else noteOut (itemBytes it) sc

/-- Stages an item on the blotter. -/
def stageItem (s : State) (p : Nat) (it : Item) : State := s.updJob p (fun j => { j with items := j.items ++ [it] })

/-- KVAP (R172). -/
def execKvap (i : Issue) (s : State) : Host.Outcome State Fault Refusal :=
  issue .kvap i s (fun sc t =>
    let a := rdA i sc i.f.src1.toNat
    let k := rdA i sc i.f.src2.toNat
    let n := 64 * immBits i.f 5 7
    let slot := (rdG i sc (immBits i.f 0 5)).toNat % 65536
    let x := t.part sc.part
    let cs := sramFault a n
    let pos := kvByte k / 4096
    let off := kvByte k % 4096
    if cs ≠ 0 then .fault cs a
    else if 5 ≤ space k then .fault fSpace k
    else if space k ≠ 2 then .fault fHbm k
    else if !ownPage x (kvPage k) then .fault fCross k
    else
      match t.job sc.part with
      | none => .wait
      | some j =>
        let pg := kvTarget t slot (kvPage k) (Tbl.get? x.pages (kvPage k))
        let st := match Tbl.get? x.pages pg with
          | some g => g.posOf pos
          | none => .empty
        if off % 64 ≠ 0 ∨ 4096 < off + n ∨ (st = .committed ∧ !outsideReplay j slot) then .fault fEncoding k
        else if txWaits t sc ∨ sramReadWaits sc (offset60 a) n then .wait
        else
          let it := Item.kv slot pg pos off (Mem.readBytes sc.sram (offset60 a) n) (fieldFlag i.f 0)
          .done ((stageItem t sc.part it).setScribe i.lcore (noteItem t it (addTx sc .memory false (offset60 a) n))))

/-- The requests that an uncorrectable error in a page touches (R249). -/
def pageLoc (i : Issue) : Scribe → State → FaultUnit × SuspectSet := fun sc t =>
  let k := kvPage (rdA i sc i.f.src2.toNat)
  (.hbmPage k 0, match Tbl.get? (t.part sc.part).pages k with
    | some g => (match g.owner with
        | .priv slot => .slot slot
        | .sealed h => .handle h
        | _ => .all)
    | none => .all)

/-- KVGT (R173). -/
def execKvgt (i : Issue) (s : State) : Host.Outcome State Fault Refusal :=
  .next (issueAt .kvgt i s (pageLoc i) (fun sc t =>
    let a := rdA i sc i.f.src1.toNat
    let k := rdA i sc i.f.src2.toNat
    let n := immBits i.f 0 19
    let x := t.part sc.part
    let cs := sramFault a n
    if cs ≠ 0 then .fault cs a
    else if 5 ≤ space k then .fault fSpace k
    else if space k ≠ 2 then .fault fHbm k
    else if !ownPage x (kvPage k) then .fault fCross k
    else if kvByte k % 64 ≠ 0 ∨ 2 ^ 18 < kvByte k + n then .fault fEncoding k
    else
      match t.job sc.part with
      | none => .wait
      | some j =>
        if txWaits t sc ∨ sramWriteWaits sc (offset60 a) n then .wait
        else
          let bs := kvBytes x j (kvPage k) (kvByte k) n
          let m := Mem.writeBytes sc.sram (offset60 a) bs
          .done (t.setScribe i.lcore (noteIn bs (addTx { sc with sram := m } .memory true (offset60 a) n)))))

/-! ### Request state areas (R206) -/

/-- The slot is in the step's request list (R201). -/
def listed (j : Job) (slot : Nat) : Bool := j.reqList.any (fun e => e.slot == slot)

/-- The state area of a slot as the step reads it (R16, R206). -/
def stateRead (s : State) (j : Job) (slot : Nat) : Mem :=
  j.items.foldl (fun m it => match it with
    | .state sl off data => if sl = slot then Mem.writeBytes m off data else m
    | _ => m) (s.slot slot).stateArea

def stateLoc (i : Issue) : Scribe → State → FaultUnit × SuspectSet := fun sc _ =>
  let slot := (rdG i sc i.f.src2.toNat).toNat % 65536
  (.hbmState slot 0, .slot slot)

/-- BLOT of the row's direction; a word of the other direction is no word of the row. -/
def blotOp (i : Issue) (s : State) (read : Bool) : Host.Outcome State Fault Refusal :=
  .next (issueAt .blot i s (stateLoc i) (fun sc t =>
    let a := rdA i sc i.f.src1.toNat
    let n := 64 * immBits i.f 7 8
    let off := 64 * immBits i.f 0 7
    let slot := (rdG i sc i.f.src2.toNat).toNat % 65536
    let cs := sramFault a n
    if fieldFlag i.f 0 ≠ read then .fault fEncoding 0#64
    else if cs ≠ 0 then .fault cs a
    else
      match t.job sc.part with
      | none => .wait
      | some j =>
        if !listed j slot then .fault fEncoding 0#64
        else if read then
          if sramWriteWaits sc (offset60 a) n then .wait
          else
            let bs := Mem.readBytes (stateRead t j slot) off n
            let m := Mem.writeBytes sc.sram (offset60 a) bs
            .done (t.setScribe i.lcore (noteIn bs (addTx { sc with sram := m } .blot true (offset60 a) n)))
        else if sramReadWaits sc (offset60 a) n then .wait
        else
          let it := Item.state slot off (Mem.readBytes sc.sram (offset60 a) n)
          .done ((stageItem t sc.part it).setScribe i.lcore (noteItem t it (addTx sc .blot false (offset60 a) n)))))

def execBlotStage (i : Issue) (s : State) : Host.Outcome State Fault Refusal := blotOp i s false
def execBlotRead (i : Issue) (s : State) : Host.Outcome State Fault Refusal := blotOp i s true

/-! ### End of a transaction (R155) -/

/-- A receiver still waits for the data of the sender's transaction. -/
def dataOwed (s : State) (p pindex id : Nat) : Bool :=
  s.scribes.any (fun (_, x) => x.part == p && x.recvs.any (fun r =>
    r.data.isSome && r.sendId == id && r.peer == pindex && r.device.isNone))

/-- TRANSACTION_DONE: the last byte of a transaction is written. A SEND or MCAST that still waits for answers, or whose data a
receiver on this device has not got, is not done. -/
def execTransactionDone (lcore id : Nat) (s : State) : Host.Outcome State Fault Refusal :=
  let sc := s.scribe lcore
  if sc.sends.any (fun x => x.id == id) || dataOwed s sc.part sc.pindex id then .next s
  else .next (tryBar (s.setScribe lcore { sc with txs := sc.txs.filter (fun x => x.id != id) }) sc.part)

end Sys2Proof.Machine
end

