-- ==== Sys2Proof/Machine/MeshOps.lean ====
section
/-! DEFINITION. Mesh instructions: the rendezvous of SEND, MCAST and RECV (R174, R175), ligatures (R108 to R112, R176 to R178),
and the flits that routers receive (R104 to R107, R247). -/

namespace Sys2Proof.Machine

/-! ### Plan indices (R116, R143) -/

/-- The logical core of a plan index. -/
def lcoreOf (s : State) (p idx : Nat) : Option Nat :=
  match (s.part p).plan with
  | none => none
  | some pl => pl.lcores[idx]?

def planNcore (s : State) (p : Nat) : Nat := match (s.part p).plan with
  | some pl => pl.ncore
  | none => 0

/-! ### SEND, MCAST and RECV (R174, R175) -/

def dLen (d : W64) : Nat := (d.extractLsb' 40 24).toNat
def dPeer (d : W64) : Nat := (d.extractLsb' 0 10).toNat
def dDevice (d : W64) : Option Nat := if d.getLsbD 32 then some (d.extractLsb' 16 16).toNat else none

/-- The fault of a SEND or RECV descriptor (R143, R174), 0 for none, with the core operand that `PLAN.FAULT_ADDR` shows: the plan index,
or the block position (log entry 96). A RECV may name any core of its device but not the device itself by its block position. -/
def descFault (s : State) (sc : Scribe) (d : W64) (send : Bool) : Nat × W64 :=
  if !lenOk (dLen d) 1572864 then (fEncoding, 0#64)
  else if planNcore s sc.part ≤ dPeer d then (fCore, BitVec.ofNat 64 (dPeer d))
  else match dDevice d, s.job sc.part with
    | none, _ => (if send && dPeer d == sc.pindex then fEncoding else 0, 0#64)
    | some _, none => (0, 0#64)
    | some pos, some j =>
      if j.block.length ≤ pos then (fCross, BitVec.ofNat 64 pos) else (if pos = j.pos then fEncoding else 0, 0#64)

/-- Puts a transaction on the mesh whose answers `dests` are awaited. -/
def postSend (sc : Scribe) (tag lo len : Nat) (dests : List Nat) (dev : Option Nat) : Scribe :=
  let id := newTxId sc
  let sc1 := addTx sc .mesh false lo len
  if dests.isEmpty then sc1
  else { sc1 with sends := sc1.sends ++
    [{ id := id, tag := tag, dests := dests, all := dests, device := dev, lo := lo, len := len, index := sc.pc }] }

/-- The packet of a transfer that crosses to another device of the block: 2 request, 3 answer, 1 data (R302). -/
def postAcross (sc : Scribe) (typ : Nat) (dev : Option Nat) (peer tag : Nat) (data : List Byte) (s : State) : State :=
  match dev with
  | none => s
  | some pos => postToCore s sc.part typ pos peer sc.pindex tag data

/-- SEND (R175): the request goes to the partner. -/
def execSend (i : Issue) (s : State) : Host.Outcome State Fault Refusal :=
  issue .send i s (fun sc t =>
    let a := rdA i sc i.f.src1.toNat
    let d := rdG i sc i.f.src2.toNat
    let cd := descFault t sc d true
    let cs := sramFault a (dLen d)
    if cd.1 ≠ 0 then .fault cd.1 cd.2
    else if cs ≠ 0 then .fault cs a
    else if txWaits t sc ∨ sramReadWaits sc (offset60 a) (dLen d) then .wait
    else .done (postAcross sc 2 (dDevice d) (dPeer d) (immBits i.f 0 16) []
      (t.setScribe i.lcore (noteOut (Mem.readBytes sc.sram (offset60 a) (dLen d))
        (postSend sc (immBits i.f 0 16) (offset60 a) (dLen d) [dPeer d] (dDevice d))))))

/-- MCAST (R174): every plan index from the first to the last but its own. -/
def execMcast (i : Issue) (s : State) : Host.Outcome State Fault Refusal :=
  issue .mcast i s (fun sc t =>
    let a := rdA i sc i.f.src1.toNat
    let d := rdG i sc i.f.src2.toNat
    let first := dPeer d
    let last := (d.extractLsb' 16 10).toNat
    let cs := sramFault a (dLen d)
    if !lenOk (dLen d) 1572864 ∨ last < first then .fault fEncoding 0#64
    else if planNcore t sc.part ≤ last then .fault fCore (BitVec.ofNat 64 last)
    else if cs ≠ 0 then .fault cs a
    else if txWaits t sc ∨ sramReadWaits sc (offset60 a) (dLen d) then .wait
    else
      let dests := ((List.range (last + 1 - first)).map (· + first)).filter (fun k => k != sc.pindex)
      .done (t.setScribe i.lcore (noteOut (Mem.readBytes sc.sram (offset60 a) (dLen d))
        (postSend sc (immBits i.f 0 16) (offset60 a) (dLen d) dests none))))

/-- A request that has arrived matches a posted RECV. -/
def reqMatches (r : RecvPost) (a : SendArrived) : Bool :=
  !r.matched && r.tag == a.tag && r.peer == a.peer && r.device == a.device

/-- Matches one arrived request with one posted RECV of logical core `l`, oldest first, and answers it; a length that differs faults at
the RECV's instruction (R175). -/
def matchRecv (s : State) (l : Nat) : State :=
  let sc := s.scribe l
  match sc.arrived.findSome? (fun a => (sc.recvs.find? (fun r => reqMatches r a)).map (fun r => (a, r))) with
  | none => s
  | some (a, r) =>
    let rest := sc.arrived.erase a
    if a.len ≠ r.len then progFault (s.setScribe l { sc with arrived := rest }) l fEncoding 0#64 r.index
    else
      postAcross sc 3 a.device a.peer a.tag [] (s.setScribe l { sc with arrived := rest, recvs := sc.recvs.map (fun x =>
        if x.id = r.id then { x with matched := true, sendId := a.sendId } else x) })

/-- RECV (R175): the buffer is posted. -/
def execRecv (i : Issue) (s : State) : Host.Outcome State Fault Refusal :=
  issue .recv i s (fun sc t =>
    let a := rdA i sc i.f.src1.toNat
    let d := rdG i sc i.f.src2.toNat
    let cd := descFault t sc d false
    let cs := sramFault a (dLen d)
    if cd.1 ≠ 0 then .fault cd.1 cd.2
    else if cs ≠ 0 then .fault cs a
    else if sramWriteWaits sc (offset60 a) (dLen d) then .wait
    else
      let r : RecvPost := { id := newTxId sc, tag := immBits i.f 0 16, peer := dPeer d, device := dDevice d,
                            lo := offset60 a, len := dLen d, matched := false, sendId := 0, data := none, index := sc.pc }
      let t1 := retire (t.setScribe i.lcore { sc with recvs := sc.recvs ++ [r] }) i.lcore
      .stays (matchRecv t1 i.lcore))

/-- A step number is that of the step in progress, or of the step being replayed (R112). -/
def stepCurrent (j : Job) (n : Nat) : Bool :=
  n == j.stepNo || (match j.hold with
    | some h => j.replaying && n == h.stepNo
    | none => false)

/-- A request from a core of this device is one that the core has sent. -/
def sentBy (s : State) (p : Nat) (r : RendezvousReq) (me : Nat) : Bool :=
  match r.device with
  | some _ => true
  | none => match lcoreOf s p r.peer with
    | none => false
    | some l => (s.scribe l).sends.any (fun x => x.id == r.id && x.tag == r.tag && x.len == r.len && x.dests.contains me)

/-- RENDEZVOUS_REQUEST: a request of a SEND or MCAST reaches its destination; one of another step, or for a stopped core, is
discarded (R112, R118, R175). -/
def execRendezvousRequest (lcore : Nat) (r : RendezvousReq) (s : State) : Host.Outcome State Fault Refusal :=
  let sc := s.scribe lcore
  match s.job sc.part with
  | none => .next (countDiscard s (runCore s lcore))
  | some j =>
    if !stepCurrent j r.stepNo ∨ sc.mode = .stopped then .next (countDiscard s (runCore s lcore))
    else if !sentBy s sc.part r sc.pindex
        || sc.arrived.any (fun a => a.peer == r.peer && a.sendId == r.id && a.device == r.device)
        || sc.recvs.any (fun x => x.matched && x.peer == r.peer && x.sendId == r.id && x.device == r.device) then .next s
    else
      let a : SendArrived := { tag := r.tag, peer := r.peer, device := r.device, len := r.len, sendId := r.id }
      .next (matchRecv (s.setScribe lcore { sc with arrived := sc.arrived ++ [a] }) lcore)

/-- The sender reads its source region for its destinations on this device. -/
def pushData (p pindex id : Nat) (bs : List Byte) (s : State) (peer : Nat) : State :=
  match lcoreOf s p peer with
  | none => s
  | some l =>
    let x := s.scribe l
    s.setScribe l { x with recvs := x.recvs.map (fun r =>
      if r.matched && r.sendId == id && r.peer == pindex && r.device.isNone then { r with data := some bs } else r) }

/-- RENDEZVOUS_ANSWER: a destination of transaction `id` answers; with the last answer the sender reads its source region (R175). A fenced
core injects nothing further (R118). -/
def execRendezvousAnswer (lcore id peer : Nat) (s : State) : Host.Outcome State Fault Refusal :=
  let sc := s.scribe lcore
  match sc.sends.find? (fun x => x.id == id) with
  | none => .next s
  | some q =>
    let ready := match q.device, lcoreOf s sc.part peer with
      | some _, _ => true
      | none, none => false
      | none, some l => (s.scribe l).recvs.any (fun r =>
          r.matched && r.sendId == id && r.peer == sc.pindex && r.device.isNone)
    if !ready || !q.dests.contains peer || sc.mode == .stopped then .next s
    else
      let left := q.dests.filter (fun k => k != peer)
      if !left.isEmpty then
        .next (s.setScribe lcore { sc with sends := sc.sends.map (fun x => if x.id = id then { x with dests := left } else x) })
      else
        let bs := Mem.readBytes sc.sram q.lo q.len
        let s1 := s.setScribe lcore { sc with sends := sc.sends.filter (fun x => x.id != id) }
        .next (if q.device.isNone then q.all.foldl (pushData sc.part sc.pindex id bs) s1
          else postAcross sc 1 q.device peer q.tag bs s1)

/-- The recorded payload of a RECV. -/
def isPayload (sc : Scribe) (r : RecvPost) (y : Payload) : Bool :=
  y.pindex == sc.pindex && y.tag == r.tag && y.peer == r.peer && some y.device == r.device

/-- What a RECV from another device receives: in an inserted step the payload that the partner's step received, where there is one. In a
replay of its own the device receives what the other devices of the block, which replay the step with it, send anew (R250, R254, R259). -/
def payloadOf (s : State) (sc : Scribe) (r : RecvPost) (bs : List Byte) : List Byte := match s.job sc.part with
  | none => bs
  | some j => match j.payloadsLeft.find? (isPayload sc r) with
    | some y => (y.data ++ List.replicate (r.len - y.data.length) 0#8).take r.len
    | none => bs

/-- The payload stays with the step (R250); a replay leaves those of the step itself. -/
def keepPayload (sc : Scribe) (r : RecvPost) (bs : List Byte) (j : Job) : Job :=
  match j.payloadsLeft.find? (isPayload sc r) with
  | some y => { j with payloadsLeft := j.payloadsLeft.erase y }
  | none => if j.replaying then j else { j with payloads := j.payloads ++
      [{ pindex := sc.pindex, tag := r.tag, peer := r.peer, device := r.device.getD 0, data := bs }] }

/-- RECV_DATA_ARRIVAL: the last byte of a RECV's data has arrived and its buffer is written (R175). Data from a core of this device
are what the sender read; an Avgon payload stays on the blotter with the step (R250). A stopped core's router discards them (R118). -/
def execRecvDataArrival (lcore id : Nat) (data : List Byte) (s : State) : Host.Outcome State Fault Refusal :=
  let sc := s.scribe lcore
  match sc.recvs.find? (fun r => r.id == id) with
  | none => .next s
  | some r =>
    if sc.mode = .stopped then .next (countDiscard s (runCore s lcore))
    else match r.matched, r.device, r.data with
    | true, some _, _ =>
      let bs := payloadOf s sc r ((data ++ List.replicate (r.len - data.length) 0#8).take r.len)
      let s1 := s.setScribe lcore (noteIn bs { sc with
        sram := Mem.writeBytes sc.sram r.lo bs, recvs := sc.recvs.filter (fun x => x.id != id) })
      .next (s1.updJob sc.part (keepPayload sc r bs))
    | true, none, some bs =>
      .next (s.setScribe lcore (noteIn bs { sc with
        sram := Mem.writeBytes sc.sram r.lo bs, recvs := sc.recvs.filter (fun x => x.id != id) }))
    | _, _, _ => .next s

/-! ### Ligature sums (R108 to R111) -/

/-- Signed sum of two lanes, with whether it overflows (R110). -/
def addLane (x y : W32) : W32 × Bool :=
  let z := x.toInt + y.toInt
  (x + y, decide (z < -(2 ^ 31)) || decide (2 ^ 31 ≤ z))

/-- Two lists of lanes added: fp32 or int32; answers whether a lane overflows. A side that holds no sum yet leaves the other. -/
def addLanes (lfmt : Bool) (x y : List W32) : List W32 × Bool :=
  if x.isEmpty then (y, false)
  else if y.isEmpty then (x, false)
  else if lfmt then (List.zipWith fAdd x y, false)
  else
    let r := List.zipWith addLane x y
    (r.map (·.1), r.any (·.2))

/-- Merges two ligature flits of one tag, step tag and destination; answers whether a lane overflows. -/
def mergeFlits (x y : LigFlit) : LigFlit × Bool :=
  let r := addLanes x.lfmt x.lanes y.lanes
  ({ x with lanes := r.1, ncontrib := x.ncontrib + y.ncontrib, lchk := x.lchk + y.lchk, terms := x.terms ++ y.terms }, r.2)

/-- Flits of one ligature, in one mode. -/
def sameFlit (x y : LigFlit) : Bool :=
  x.tag == y.tag && x.stepTag == y.stepTag && x.dest == y.dest && x.lcore == y.lcore && x.lfmt == y.lfmt && x.order == y.order

/-- Adds a flit to a list of flits; answers whether a lane overflows. -/
def addFlit : List LigFlit → LigFlit → List LigFlit × Bool
  | [], f => ([f], false)
  | x :: xs, f =>
    if sameFlit x f then
      let r := mergeFlits x f
      (r.1 :: xs, r.2)
    else
      let r := addFlit xs f
      (x :: r.1, r.2)

def insertTerm (a : Nat × List W32) : List (Nat × List W32) → List (Nat × List W32)
  | [] => [a]
  | b :: bs => if a.1 < b.1 then a :: b :: bs else b :: insertTerm a bs

/-- The sum of a gathered flit: the lanes, with the terms that relay mode leaves to the destination added one after another in chain order
(R109, R254). -/
def flitSum (f : LigFlit) : List W32 :=
  ((f.terms.foldl (fun acc t => insertTerm t acc) []).map (·.2)).foldl (fun acc x => (addLanes f.lfmt acc x).1) f.lanes

/-- The chain of a tag at logical core `l` that lists a contributor, as the loader bound it (R109, R178). -/
def chainOrder (s : State) (l tag pindex array : Nat) : Option (List ChainTerm) :=
  let sc := s.scribe l
  match (s.part sc.part).plan with
  | none => none
  | some pl => (pl.chains.find? (fun c => c.pindex == sc.pindex && baseTag c.tag == baseTag tag
      && c.offs.contains (pindex, array))).map (fun c => c.order)

/-! ### Receipts (R111, R112, R177, R178) -/

/-- The flit gathered for a tag at logical core `l`: what has arrived for it in either mode, as one sum. -/
def gathered (sc : Scribe) (r : LigReceipt) (f : Nat) : Option LigFlit :=
  match sc.flits.filter (fun x => x.tag == r.tag + f && x.lfmt == r.lfmt) with
  | [] => none
  | x :: xs => some (xs.foldl (fun a y => (mergeFlits a y).1) x)

/-- A tag of a receipt is complete: its count is reached, or passed. -/
def tagDone (sc : Scribe) (r : LigReceipt) (f : Nat) : Bool :=
  match gathered sc r f with
  | some x => decide (r.expected ≤ x.ncontrib) && decide (0 < x.ncontrib)
  | none => false

/-- Count and checksum of a completed tag agree (R111). -/
def tagGood (r : LigReceipt) (x : LigFlit) : Bool :=
  x.ncontrib == r.expected && (x.lfmt || x.lanes.foldl (· + ·) 0#32 == x.lchk)

/-- Ends a receipt: the sums so far, or 0, go to its register, and its flits are gone. -/
def endReceipt (s : State) (l : Nat) (r : LigReceipt) : State :=
  let sc := s.scribe l
  let ls := (List.range 4).flatMap (fun f => match gathered sc r f with
    | some x => flitSum x
    | none => List.replicate 16 0#32)
  s.setScribe l (noteIn (vBytes (ofLanes ls)) { sc with
    arch := sc.arch.setV r.dest (ofLanes ls)
    receipts := sc.receipts.erase r
    flits := sc.flits.filter (fun x => !(baseTag x.tag == r.tag && x.lfmt == r.lfmt)) })

/-- A tag has failed: its count is passed, or it is complete with a wrong checksum (R177). -/
def tagFailed (sc : Scribe) (r : LigReceipt) (f : Nat) : Bool :=
  match gathered sc r f with
  | some x => tagDone sc r f && !tagGood r x
  | none => false

/-- Receipt `r` of logical core `l` completes once its four tags are complete. LIG_CHK is raised as soon as a tag fails, once for the
receipt; at completion too where no tag was reported. -/
def tryReceipt (s : State) (l : Nat) (r : LigReceipt) : State :=
  let sc := s.scribe l
  let bad := (List.range 4).any (tagFailed sc r)
  let s1 := if bad && !r.failed then ligFailAt s (runCore s l) l r.tag 9 9 r.index else s
  if (List.range 4).all (tagDone sc r) then endReceipt s1 l r
  else if bad && !r.failed then
    s1.setScribe l { s1.scribe l with receipts := (s1.scribe l).receipts.map (fun x => if x = r then { x with failed := true } else x) }
  else s1

/-- The receipts of a core that wait for a tag, oldest first: the first of them gathers it. -/
def receiptFor (sc : Scribe) (tag : Nat) (lfmt : Bool) : Option LigReceipt :=
  sc.receipts.find? (fun r => r.tag == baseTag tag && r.lfmt == lfmt)

/-! ### Flits on their way (R107, R108, R112) -/

/-- The job's current step tags (R104, R112). -/
def tagCurrent (s : State) (l stepTag : Nat) : Bool :=
  match s.job (s.scribe l).part with
  | none => false
  | some j => stepTag == j.stepNo % 4 || (match j.hold with
      | some h => j.replaying && stepTag == h.stepNo % 4
      | none => false)

/-- In relay mode no router merges; each contribution goes to the destination (R254). -/
def relayMode (s : State) (l : Nat) : Bool :=
  match s.job (s.scribe l).part with
  | none => false
  | some j => j.replaying && (match j.hold with
      | some h => h.kind == .ligatureRelay
      | none => false)

/-- A flit reaches the local port of its destination core: gathered there, discarded when the core is fenced or the step is over. -/
def gatherFlit (s : State) (f : LigFlit) : State :=
  let c := f.dest
  if (s.pcore c).kind = .fenced ∨ !tagCurrent s f.lcore f.stepTag then countDiscard s c
  else
    let sc := s.scribe f.lcore
    let r := addFlit sc.flits f
    let s1 := s.setScribe f.lcore { sc with flits := r.1 }
    let s2 := if r.2 then ligFail s1 c f.lcore f.tag 10 10 else s1
    match receiptFor (s2.scribe f.lcore) f.tag f.lfmt with
    | none => s2
    | some q => tryReceipt s2 f.lcore q

def maxLigSlots : Nat := 64

/-- A flit takes a slot of router `c`, or joins the one that holds its partner; false where all slots are taken. -/
def slotFlit (s : State) (c : Nat) (f : LigFlit) : State × Bool :=
  let held := Tbl.getD s.slotsLig c []
  if f.order.isNone && held.any (fun x => sameFlit x f) then
    let r := addFlit held f
    let s1 := { s with slotsLig := Tbl.set s.slotsLig c r.1 }
    (if r.2 then ligFail s1 c f.lcore f.tag 10 10 else s1, true)
  else if maxLigSlots ≤ held.length then (s, false)
  else
    let x := s.pcore c
    let s1 := { s with slotsLig := Tbl.set s.slotsLig c (held ++ [f]) }
    (s1.setPcore c { x with slotHw := max x.slotHw (held.length + 1) }, true)

/-! #### Chain mode (R108, R109, R178) -/

/-- The running sum takes the term that follows in the chain order, as long as the slot holds it. -/
def chainAdd : Nat → LigFlit → LigFlit × Bool
  | 0, f => (f, false)
  | n + 1, f => match f.terms.find? (fun t => t.1 == f.pos) with
    | none => (f, false)
    | some t =>
      let r := addLanes f.lfmt f.lanes t.2
      let g := chainAdd n { f with
        lanes := r.1, pos := f.pos + 1, terms := f.terms.erase t, ncontrib := f.ncontrib + 1
        lchk := if f.lfmt then 0#32 else f.lchk + t.2.foldl (· + ·) 0#32 }
      (g.1, r.2 || g.2)

/-- A flit of a chain waits at router `c`: contributions without the running sum, or the running sum where terms of this core follow. -/
def chainWaits (c : Nat) (x : LigFlit) : Bool := x.lanes.isEmpty || x.heading == c

/-- Two parts of one chain at the router of a contributor: the running sum and this core's terms. -/
def chainJoin (x y : LigFlit) : LigFlit × Bool :=
  let g : LigFlit := if x.lanes.isEmpty then { y with terms := x.terms ++ y.terms } else { x with terms := x.terms ++ y.terms }
  chainAdd g.terms.length g

/-- A flit of a chain at router `c`. A running sum bound elsewhere takes a slot until it moves on. What waits for this core's terms is
held in one slot; the sum goes on, or is delivered, once they are added. A second contribution to one place of the order is never added: it
stays in the slot until the slot times out. -/
def chainArrive (s : State) (c : Nat) (f : LigFlit) : State × Bool :=
  if !chainWaits c f then slotFlit s c f
  else
    let held := Tbl.getD s.slotsLig c []
    let r := match held.find? (fun x => sameFlit x f && chainWaits c x) with
      | some x => (held.erase x, chainJoin x f)
      | none => (held, chainAdd f.terms.length f)
    let w := r.2.1
    let done := match w.order with
      | some o => decide (o.length ≤ w.pos) && !w.lanes.isEmpty
      | none => true
    let past := done || (!w.lanes.isEmpty && w.heading != c)
    let g : LigFlit := if past then { w with terms := [] } else w
    let rest : List LigFlit :=
      if past && !w.terms.isEmpty then [{ w with lanes := [], ncontrib := 0, lchk := 0#32, pos := 0 }] else []
    let put (t : State) : State × Bool :=
      if done && g.dest == c then (gatherFlit t g, true) else slotFlit t c g
    let s1 := { s with slotsLig := Tbl.set s.slotsLig c (r.1 ++ rest) }
    let u := put (if r.2.2 then ligFail s1 c f.lcore f.tag 10 10 else s1)
    if u.2 then u else (s, false)

/-- A flit at router `c`: delivered there, or held for its way on; false where it must wait. -/
def arriveFlit (s : State) (c : Nat) (f : LigFlit) : State × Bool :=
  if f.order.isSome then chainArrive s c f
  else if f.dest = c ∨ relayMode s f.lcore then (gatherFlit s f, true) else slotFlit s c f

/-- Flit `f` of a contribution by plan index `k`, array `n`. In chain mode its lanes are one term, at its place in the chain order; in
relay mode an fp32 term goes to the destination, which adds in that order. A contributor that no list of the receiver names has no place:
its flit goes to the destination as in merge mode, and the count there cannot be met (log entry 94). -/
def contribution (s : State) (sc : Scribe) (dl tag n stepTag : Nat) (lfmt chain : Bool) (ls : List W32) : LigFlit :=
  let chk := if lfmt then 0#32 else ls.foldl (· + ·) 0#32
  let plain : LigFlit :=
    { tag := tag, stepTag := stepTag, dest := runCore s dl, lcore := dl, lfmt := lfmt, lanes := ls, ncontrib := 1, lchk := chk,
      terms := [], order := none, pos := 0 }
  match if chain then chainOrder s dl tag sc.pindex n else none with
  | none => plain
  | some o =>
    let k := o.findIdx (fun t => t.array == n && t.pindex == sc.pindex)
    if !relayMode s dl then { plain with lanes := [], ncontrib := 0, lchk := 0#32, terms := [(k, ls)], order := some o }
    else if lfmt then { plain with lanes := [], terms := [(k, ls)] }
    else plain

/-- LIG_CONTRIBUTION (R176): four flits leave the core's local port. -/
def execLigContribution (i : Issue) (s : State) : Host.Outcome State Fault Refusal :=
  issue .lig i s (fun sc t =>
    let d := rdG i sc i.f.src2.toNat
    let lfmt := d.getLsbD 30
    let chain := immBits i.f 16 1 = 1
    if immBits i.f 17 1 = 1 ∨ (lfmt ∧ !chain) then .fault fEncoding 0#64
    else
      match lcoreOf t sc.part (dPeer d) with
      | none => .fault fCore (BitVec.ofNat 64 (dPeer d))
      | some dl =>
        if planNcore t sc.part ≤ dPeer d then .fault fCore (BitVec.ofNat 64 (dPeer d))
        else
          match t.job sc.part with
          | none => .wait
          | some j =>
            let v := lanes (rdV i sc i.f.src1.toNat)
            let c := runCore t i.lcore
            let flits := (List.range 4).map (fun f =>
              contribution t sc dl (immBits i.f 0 16 + f) (immBits i.f 18 5) (j.stepNo % 4) lfmt chain ((v.drop (16 * f)).take 16))
            let r := flits.foldl (fun acc f => if acc.2 then arriveFlit acc.1 c f else acc) (t, true)
            if r.2 then .done (r.1.setScribe i.lcore (noteOut (vBytes (rdV i sc i.f.src1.toNat)) (r.1.scribe i.lcore))) else .wait)

/-- A receipt begins: it may find its flits gathered (R177). -/
def beginReceipt (i : Issue) (t : State) (r : LigReceipt) : Ran :=
  let t1 := retire t i.lcore
  let sc := t1.scribe i.lcore
  .stays (tryReceipt (t1.setScribe i.lcore { sc with receipts := sc.receipts ++ [r] }) i.lcore r)

/-- LIG_RECEIPT_MERGE (R177). -/
def execLigReceiptMerge (i : Issue) (s : State) : Host.Outcome State Fault Refusal :=
  issue .lig i s (fun sc t =>
    let d := rdG i sc i.f.src2.toNat
    if immBits i.f 17 1 = 0 ∨ immBits i.f 16 1 = 1 ∨ d.getLsbD 30 then .fault fEncoding 0#64
    else
      beginReceipt i t { tag := immBits i.f 0 16, lfmt := false, dest := i.f.dest.toNat,
                         expected := (d.extractLsb' 16 10).toNat, index := sc.pc, failed := false })

/-- LIG_RECEIPT_CHAIN (R178): the count of the contributor list in SRAM. -/
def execLigReceiptChain (i : Issue) (s : State) : Host.Outcome State Fault Refusal :=
  issue .lig i s (fun sc t =>
    let d := rdG i sc i.f.src2.toNat
    let a := 128 * immBits i.f 18 14
    if immBits i.f 17 1 = 0 ∨ immBits i.f 16 1 = 0 then .fault fEncoding 0#64
    else if 0x180000 < a + 4 then .fault fSram (BitVec.ofNat 64 a)
    else if sramReadWaits sc a 4 then .wait
    else
      beginReceipt i t { tag := immBits i.f 0 16, lfmt := d.getLsbD 30, dest := i.f.dest.toNat,
                         expected := leNat (Mem.readBytes sc.sram a 4), index := sc.pc, failed := false })

/-- LIG_RECEIPT_TIMEOUT (R112): a tag of a receipt has not completed; the receipt completes with the sums so far. -/
def execLigReceiptTimeout (lcore tag : Nat) (s : State) : Host.Outcome State Fault Refusal :=
  let sc := s.scribe lcore
  match sc.receipts.find? (fun r => r.tag == baseTag tag && !tagDone sc r (tag % 4)) with
  | none => .next s
  | some r => .next (ligFailAt (endReceipt s lcore r) (runCore s lcore) lcore tag 11 8 r.index)

/-- LIG_SLOT_TIMEOUT (R112): the slot is released. DESIGN CHOICE (log entry 94): what becomes of the flit in it is not said; it is dropped,
and `CORE.RTR_ERR.DISCARD`, whose three causes do not include a timeout, does not count it. -/
def execLigSlotTimeout (core tag stepTag : Nat) (s : State) : Host.Outcome State Fault Refusal :=
  let held := Tbl.getD s.slotsLig core []
  match held.find? (fun f => f.tag == tag && f.stepTag == stepTag) with
  | none => .next s
  | some f => .next (ligFail { s with slotsLig := Tbl.set s.slotsLig core (held.erase f) } core f.lcore tag 11 8)

/-! ### FLIT_RECEIVED (R105 to R107, R247) -/

/-- The flit on the wire is the ligature flit that a slot holds. -/
def onWire (f : Flit) (x : LigFlit) : Bool :=
  f.tag == x.tag && f.stepTag == x.stepTag && f.dest == x.dest && f.lfmt == x.lfmt && f.ncontrib == x.ncontrib && f.lchk == x.lchk
  && f.payload == packLanes x.lanes && !x.lanes.isEmpty

/-- A ligature flit comes from a slot of the neighbouring router `n`, whose tables lead it to router `c`; where `c` has no room for it, it
stays there, waiting on VC 1 credits (R112). -/
def ligHop (s : State) (n c port : Nat) (f : Flit) : State :=
  let held := Tbl.getD s.slotsLig n []
  match held.find? (fun x => onWire f x && routeOf s n x.heading == some (oppositePort port)) with
  | none => s
  | some x =>
    let t := arriveFlit { s with slotsLig := Tbl.set s.slotsLig n (held.erase x) } c x
    if t.2 then t.1 else s

/-- A flit stands ready to come in by a port of router `c`: in the neighbour's buffers, or sent by its core, with the tables of the
neighbour leading it here; or it comes from outside the mesh. VC 0 goes before the others (R105). -/
def readyFor (s : State) (c port : Nat) (f : Flit) : Bool :=
  match meshNeighbour c port with
  | none => (edgeAt c port).isSome
  | some n =>
    routeOf s n (flitTarget f) == some (oppositePort port) && ((headPort s n f).isSome || f.src == n)
    && (f.vc == 0 || !urgent s n (oppositePort port))

/-- The flit leaves the mesh at router `c`, by its outward port. -/
def leavesMesh (s : State) (c : Nat) (f : Flit) : Bool :=
  match routeOf s c (flitTarget f) with
  | none => false
  | some p => f.dest == 0x7FF && (meshNeighbour c p).isNone && portIsUp s c p

/-- A flit of VC 0, 2 or 3 comes in by a mesh port: it takes a credit and waits in the receive buffer, or leaves the mesh; a fenced core's
router discards what is for the core (R118). Without a credit it stays where it is. -/
def flitHop (s : State) (c port : Nat) (f : Flit) : State :=
  if !readyFor s c port f then s
  else
    let s1 := match meshNeighbour c port with
      | none => s
      | some n => popFlit s n f
    if f.dest = c ∧ (s.pcore c).kind = .fenced then countDiscard s1 c
    else if leavesMesh s c f then s1
    else if hasCredit s c port f.vc then pushFlit s1 c port f
    else s

/-- A flit at the local port of a core that its DEST does not name is discarded and makes the core's step suspect (R247). -/
def misdelivered (s : State) (c : Nat) : State :=
  let s1 := countDiscard s c
  let x := s.pcore c
  failCheck s1 x.part (mkSuspect s1 x.lcore 8 (.core c) .all (s.scribe x.lcore).pc 0)

/-- A flit at a core's local port: what it carries is the transaction's own event. -/
def flitLocal (s : State) (c : Nat) (f : Flit) : State :=
  let s1 := popFlit s c f
  if f.dest ≠ c then misdelivered s1 c
  else if (s.pcore c).kind = .fenced then countDiscard s1 c
  else s1

/-- FLIT_RECEIVED (R107): a flit whose CRC fails is resent, which the router that receives it counts (DESIGN CHOICE, log entry 94: the
manual does not say which of the two routers counts it); a ligature flit is merged, held or delivered; any other moves on. -/
def execFlitReceived (core port : Nat) (crc : BitVec 16) (f : Flit) (s : State) : Host.Outcome State Fault Refusal :=
  if !(s.pcore core).rtrUp || !linkUp s core port then .next s
  else if flitCrc f ≠ crc then .next (s.setPcore core { s.pcore core with retry := sat 16 ((s.pcore core).retry + 1) })
  else if port = 4 then .next (flitLocal s core f)
  else if f.typ = 3 then
    match meshNeighbour core port with
    | none => .next s
    | some n => .next (ligHop s n core port f)
  else .next (flitHop s core port f)

end Sys2Proof.Machine
end

