-- ==== Sys2Proof/Machine/Registers.lean ====
section
/-! DEFINITION. The register pages' own commands: arms, event bits, enables, captures, reads with a side effect, writes
through the scratch window (R330, R410 to R418, R435). -/

namespace Sys2Proof.Machine

/-- Whether reads of a source reach a page (R376, R377, R421): the PF all pages, a VF its partition's until its reset
point, the debug connector by life-cycle state, while unlocked in SEALED the pages of R377 alone. -/
def canRead (s : State) (src page : Nat) : Bool :=
  pageLive s page
  && (if src = 0 then true
      else if src ≤ 32 then pagePart page == some (src - 1) && !(s.part (src - 1)).resetting
      else if src = 34 then
        s.sec.lcState == 0 || (s.sec.lcState == 2 && s.sec.eraseDone)
        || (s.sec.lcState == 1 && s.sec.unlocked
            && match pageKind page with
              | some (typ, _) => [2, 3, 4, 5, 6, 7, 8, 9, 10, 12].contains typ
              | none => false)
      else false)

/-- Offset of the ARM register of a page (R126, R296, R298, R347, R379, R408). -/
def armOffset (page : Nat) : Option Nat :=
  match pageKind page with
  | some (5, _) => some 0x054
  | some (10, _) => some 0x058
  | some (11, _) => some 0x054
  | some (13, _) => some 0x050
  | some (15, _) => some 0x044
  | some (16, _) => some 0x06C
  | _ => none

/-- ARM_WRITE (R418): 0xC0DE arms the page for its source, any other value withdraws the arm. -/
def execArmWrite (src page : Nat) (data : W32) (s : State) : Host.Outcome State Fault Refusal :=
  if !canWrite s src page || (armOffset page).isNone then .next s
  else if data = 0xC0DE#32 then .next { disarm s src page with arms := (page, src) :: (disarm s src page).arms }
  else .next (disarm s src page)

/-- ARM_EXPIRE (R418): an arm passes 1 us unused. -/
def execArmExpire (src page : Nat) (s : State) : Host.Outcome State Fault Refusal := .next (disarm s src page)

/-- Clears `INT_RAW` bits; sends nothing (R412). -/
def clearRaw (s : State) (page : Nat) (data : W32) : State :=
  s.setPage page { s.page page with intRaw := (s.page page).intRaw &&& ~~~data }

/-- INT_RAW_W1C (R412). -/
def execIntRawW1c (src page : Nat) (data : W32) (s : State) : Host.Outcome State Fault Refusal :=
  .next (if canWrite s src page then clearRaw s page data else s)

/-- The assigned event bits of a page (R410). -/
def pageBits (page : Nat) : W32 :=
  match pageKind page with
  | some (typ, inst) => BitVec.ofNat 32 (intBits typ inst)
  | none => 0#32

/-- INT_FORCE (R412): the effect of the events on the bits and the interrupt, and no other. -/
def execIntForce (src page : Nat) (data : W32) (s : State) : Host.Outcome State Fault Refusal :=
  .next (if canWrite s src page then raiseAll s [(page, (data &&& pageBits page).toNat)] else s)

/-- Writes `INT_EN`: reserved bits ignore the write, and a bit enabled while raised sends a message (R413). -/
def setIntEn (s : State) (page : Nat) (data : W32) : State :=
  let pg := s.page page
  let en := data &&& pageBits page
  let rose := if pg.irqEn then pg.intRaw &&& en &&& ~~~pg.intEn else 0#32
  (vectorsOf page rose).foldl sendMsg (s.setPage page { pg with intEn := en })

/-- INT_EN_WRITE (R413). -/
def execIntEnWrite (src page : Nat) (data : W32) (s : State) : Host.Outcome State Fault Refusal :=
  .next (if canWrite s src page then setIntEn s page data else s)

/-- Writes `CTRL.IRQ_EN`; set while `INT_STAT` is not 0, it sends one message (R413). -/
def setIrqEn (s : State) (page : Nat) (on : Bool) : State :=
  let pg := s.page page
  let rose := if on && !pg.irqEn then pg.intRaw &&& pg.intEn else 0#32
  (vectorsOf page rose).foldl sendMsg (s.setPage page { pg with irqEn := on })

/-- IRQ_EN_WRITE (R413). -/
def execIrqEnWrite (src page : Nat) (data : W32) (s : State) : Host.Outcome State Fault Refusal :=
  .next (if canWrite s src page then setIrqEn s page (data.getLsbD 0) else s)

/-- Clears the error capture and its flags (R410). -/
def clearCapt (s : State) (page : Nat) : State :=
  s.setPage page { s.page page with capt := none, errOvf := false }

/-- CAPT_CLR (R410). -/
def execCaptClr (src page : Nat) (s : State) : Host.Outcome State Fault Refusal :=
  .next (if canWrite s src page then clearCapt s page else s)

/-- CANCEL_LAT_READ (R245): the read returns the longest latency and clears it. -/
def execCancelLatRead (src : Nat) (s : State) : Host.Outcome State Fault Refusal :=
  .next (if canRead s src pgServe then { s with serve := { s.serve with cancelLat := 0 } } else s)

/-- POWER_READ (R391): the read clears PEAK_W. -/
def execPowerRead (src : Nat) (s : State) : Host.Outcome State Fault Refusal :=
  .next (if canRead s src pgTherm then { s with therm := { s.therm with peakW := 0 } } else s)

/-- `CONV.CHn_STAMP` as it stands (R401, R409). -/
def stampWord (c : Chan) : W32 := BitVec.ofNat 32 (c.stampOff % 2 ^ 22 + 2 ^ 22 * (c.stampStroke % 1024))

/-- CONV_RESULT_READ (R409): latches the stamp of the conversion whose result is read, for the source. -/
def execConvResultRead (src chan : Nat) (s : State) : Host.Outcome State Fault Refusal :=
  .next (if canRead s src pgConv && decide (chan < 20) then
      { s with latches := Tbl.set s.latches (64 * (4096 * pgConv + 0x108 + 16 * chan) + src)
                 (stampWord (Tbl.getD s.conv.chans chan Chan.reset)) }
    else s)

/-- FLOW_PULSE_EDGE (R435): counted in the running 100 ms. The always-on block counts it in any state of the rest. -/
def execFlowPulseEdge (s : State) : Host.Outcome State Fault Refusal :=
  .next { s with therm := { s.therm with
    edges := match s.therm.edges with
      | [] => [1]
      | n :: rest => (n + 1) :: rest } }

/-- Byte offset in the scratch pool that a write through a BAR2 window reaches, with its partition (R329, R330): the PF's
window of 1 GiB, a VF's of 32 MiB. -/
def windowTarget (s : State) (src part offset : Nat) : Option (Nat × Nat) :=
  if src = 0 then
    if offset < 2 ^ 30 then some (s.field pgPart 0x07C 0 5, 2 ^ 20 * s.field pgPart 0x07C 5 18 + offset) else none
  else if src ≤ 32 ∧ src = part + 1 ∧ offset < 2 ^ 25 then
    some (part, 2 ^ 20 * s.field (pgFunc part) 0x04C 0 18 + offset)
  else none

/-- The bytes of `data` written at `a` that lie below `top`. -/
def writeBelow (m : Mem) (a top : Nat) (data : List Byte) : Mem := Mem.writeBytes m a (data.take (top - a))

/-- WINDOW_WRITE (R330, R345): bytes beyond the pool, and every byte after a reset point, are ignored. -/
def execWindowWrite (src part offset : Nat) (data : List Byte) (s : State) : Host.Outcome State Fault Refusal :=
  match windowTarget s src part offset with
  | none => .next s
  | some (p, a) =>
    let x := s.part p
    if x.state = .none ∨ x.state = .creating ∨ x.resetting = true ∨ s.shut then .next s
    else .next (s.setPart p { x with scratch := writeBelow x.scratch a (2 ^ 20 * x.cfg.scratch) data })

end Sys2Proof.Machine
end

