-- ==== Sys2Proof/Machine/RegisterWrite.lean ====
section
/-! DEFINITION. Register accesses without a row of their own: writes by access type, with the rules that single fields have, and the latching
reads (R48, R49, R79, R224, R244, R274, R298, R309, R387, R391, R402, R403, R406, R408, R414 to R417, R420, R421). -/

namespace Sys2Proof.Machine

/-! ### Latching reads (R417) -/

/-- High halves of the RO pairs, by block type and offset of the _LO register. -/
def highHalf (s : State) (typ inst off : Nat) : Option Nat :=
  let h (n : Nat) : Option Nat := some (n / 2 ^ 32)
  match typ, off with
  | 2, 0x064 => h ((recordedEdition s (s.field pgBring 0x060 0 5)).getD 0)
  | 4, 0x058 => h s.stroke.number
  | 7, 0x04C => h (s.stack inst).errAddr
  | 8, 0x10C => h s.link.growAt
  | 11, 0x048 => h s.sec.serial.toNat
  | 12, 0x064 => h s.integ.lastStroke
  | 13, 0x06C => h (s.part (s.field pgWeight 0x068 0 5)).edition
  | 13, 0x074 => h (match (s.part (s.field pgWeight 0x068 0 5)).nextImage with
    | some im => im.edition
    | none => 0)
  | 13, 0x090 => h (s.array (32 * s.field pgWeight 0x080 0 11 + s.field pgWeight 0x080 11 5)).edition
  | 21, 0x070 => h (s.part inst).pstat.faultAddr.toNat
  | 4, o =>
    if 0x100 ≤ o ∧ o < 0x500 ∧ o % 0x20 = 4 then h (match s.job ((o - 0x100) / 0x20) with
      | some j => j.stepNo
      | none => 0)
    else none
  | _, _ => none

/-- Offsets 0x100 to 0x13F of every LINK page are the same registers (R326). -/
def latchPage (page off : Nat) : Nat := if 0x2020 ≤ page ∧ page < 0x202C ∧ 0x100 ≤ off ∧ off < 0x140 then 0x2020 else page

/-- LO_READ_LATCH (R417): a read of an RO _LO register latches its _HI companion for the reading source. -/
def execLoReadLatch (src page offset : Nat) (s : State) : Host.Outcome State Fault Refusal :=
  if !canRead s src page then .next s
  else
    match pageKind page with
    | none => .next s
    | some (typ, inst) =>
      match highHalf s typ inst offset with
      | none => .next s
      | some v =>
        let key := 64 * (4096 * latchPage page offset + offset + 4) + src
        .next { s with latches := Tbl.set s.latches key (BitVec.ofNat 32 v) }

/-! ### Fields with rules of their own -/

/-- `new` with the bits of `keep` as they are in `old`. -/
def keepBits (old new keep : W32) : W32 := (new &&& ~~~keep) ||| (old &&& keep)

def sealedPart (s : State) : Bool := s.sec.lcState == 1

/-- Bits that ignore writes in SEALED (R48, R274, R406). -/
def sealedBits (typ off : Nat) : W32 :=
  match typ, off with
  | 17, 0x380 => 0x6#32
  | 12, 0x040 => 0x10000#32
  | 12, 0x044 => 0x10000000#32
  | 10, 0x060 => 0x100#32
  | _, _ => 0#32

/-- Two precision channels of one modulator (R402). -/
def twoOnOne (w : W32) : Bool := (List.range 4).any (fun m => decide (1 < ((List.range 4).filter (fun k => w.getLsbD (m + 4 * k))).length))

/-- A limit write that would place LOW above HIGH (R403). -/
def limCrossed (n : Nat) (w : W32) : Bool :=
  if n < 16 then decide ((w.extractLsb' 16 16).toInt < (w.extractLsb' 0 16).toInt)
  else decide ((w.extractLsb' 16 16).toNat < (w.extractLsb' 0 16).toNat)

/-- Temperature limits with SHUT at or below its default in SEALED; none where they are out of order (R391). -/
def thermLimits (s : State) (off : Nat) (w : W32) : Option W32 :=
  let top := if off = 0x04C then 0x73 else 0x69
  let shut := (w.extractLsb' 16 8).toNat
  let w1 := if sealedPart s ∧ top < shut then keepBits (BitVec.ofNat 32 (2 ^ 16 * top)) w (0x00FF0000#32) else w
  let warn := (w1.extractLsb' 0 8).toNat
  let thr := (w1.extractLsb' 8 8).toNat
  if thr < warn ∨ (w1.extractLsb' 16 8).toNat ≤ thr then none else some w1

/-- The converter's registers (R395, R397, R402, R403, R408). -/
def writeConv (s : State) (off inst : Nat) (w : W32) : State :=
  let put (t : State) : State := t.setReg pgConv (off + 16 * inst) w
  match off with
  | 0x040 =>
    if w.getLsbD 0 then { s with conv := { s.conv with en := true } }
    else if s.bring.doneMap.testBit 3 then s
    else { s with conv := { s.conv with en := false, ready := false } }
  | 0x044 => (List.range 4).foldl wake (put s)
  | 0x048 => if twoOnOne w then s else put s
  | 0x04C => if twoOnOne w then s else put s
  | 0x064 =>
    let moved (lo : Nat) : Bool := (s.reg pgConv 0x064).extractLsb' lo 3 != w.extractLsb' lo 3
    let t := put s
    { t with conv := { t.conv with
        skipA := if moved 0 then 2 else t.conv.skipA, skipB := if moved 3 then 2 else t.conv.skipB } }
  | 0x10C => if limCrossed inst w then s else put s
  | _ => put s

/-- The registers of one array (R33, R35, R45, R49). -/
def writeArray (s : State) (k off : Nat) (w : W32) : State :=
  if off = 0x400 then
    let r := (w.extractLsb' 0 4).toNat
    let s1 := if r ≤ 11 ∧ r ≠ (s.array k).range then setRange s k r else s
    s1.setArray k { s1.array k with trackHold := w.getLsbD 4 }
  else s.setArray k { s.array k with driftTh := (w.extractLsb' 16 16).toNat }

/-- `CAL.TA_CTRL` (R71, R298): of the projection that TA_PART and TA_PROJ name. -/
def writeTaCtrl (s : State) (w : W32) : State :=
  let p := s.field pgCal 0x060 0 5
  let id := (s.reg pgCal 0x064).toNat
  match (planProjs (s.part p)).findIdx? (fun x => x.id == id) with
  | none => s
  | some k => s.setTrim p k { s.trim p k with en := w.getLsbD 0, rankMax := (w.extractLsb' 1 5).toNat }

/-- The partition that `LINK.JOB_SEL` selects. -/
def jobSel (s : State) : Nat := (Tbl.getD s.regs (0x2020 * 4096 + 0x120) 0#32).toNat

/-- Fields that ignore the write: "load" fields while a plan is loaded, and a job's block and entry likewise (R244, R309). -/
def loadBits (s : State) (typ inst off : Nat) : W32 :=
  match typ, off with
  | 8, 0x124 => if (s.part (jobSel s)).plan.isSome then 0xFFFFFFFF#32 else 0#32
  | 8, 0x128 => if (s.part (jobSel s)).plan.isSome then 0xFFFFFFFF#32 else 0#32
  | 19, o => if (s.part inst).plan.isSome then reqLoad o else 0#32
  | _, _ => 0#32

/-- Registers written by the sideband alone (R306, R308, R387, R421). -/
def sidebandOnly (typ off : Nat) : Bool :=
  (typ == 9 && off == 0x05C) || (typ == 8 && [0x100, 0x104, 0x108, 0x10C, 0x110].contains off)

/-- Takes the RW fields of a register, with the rules of single registers; `w` holds RW bits alone. -/
def writeRw (s : State) (page typ inst : Nat) (r : RegRow) (n off : Nat) (w : W32) : State :=
  match typ, r.off with
  | 9, 0x04C => (match thermLimits s off w with
    | some v => s.setReg page off v
    | none => s)
  | 9, 0x050 => (match thermLimits s off w with
    | some v => s.setReg page off v
    | none => s)
  | 10, o => writeConv s o n w
  | 11, 0x06C => { s with sec := { s.sec with preferB := w.getLsbD 0 } }
  | 15, 0x068 => writeTaCtrl s w
  | 17, 0x400 => writeArray s (32 * inst + n) 0x400 w
  | 17, 0x410 => writeArray s (32 * inst + n) 0x410 w
  | 4, 0x060 => let t := s.setReg page off w; { t with stroke := { t.stroke with epochWritten := true } }
  | 4, 0x064 => let t := s.setReg page off w; { t with stroke := { t.stroke with epochWritten := true } }
  | 4, 0x100 => (s.setReg page off w).updJob n (fun j => { j with auto := false })
  | 8, 0x12C => pairStep (s.setReg page off w) (jobSel s)
  | 19, 0x06C => let t := s.setReg page off w; flushCq (t.part inst).cqQueue.length t inst
  | _, _ => s.setReg page off w

/-! ### Writes by access type (R414, R415) -/

/-- A write to a register from offset 0x040 on. An order of bring-up step 0, which has no row, is refused (R348). -/
def writeReg (s : State) (src page typ inst off : Nat) (data : W32) : State :=
  match regAt typ off with
  | none => capture s page off 3 true (data.zeroExtend 64) src
  | some (r, n) =>
    if r.wo then
      if data = 0xC0DE#32 then { disarm s src page with arms := (page, src) :: (disarm s src page).arms } else disarm s src page
    else if r.rw = 0 ∧ r.rwa = 0 ∧ r.w1s = 0 then
      capture s page off (if sidebandOnly typ off then 5 else 2) true (data.zeroExtend 64) src
    else if r.rwa ≠ 0 then
      if armed s src page then (disarm s src page).setReg page off (data &&& BitVec.ofNat 32 (r.rwa % 2 ^ 31))
      else capture s page off 1 true (data.zeroExtend 64) src
    else if typ = 2 ∧ off = 0x040 ∧ data.getLsbD 31 = true ∧ data.extractLsb' 0 4 = 0#4 then
      bringOrder s src 0 (data.getLsbD 4) .none
    else
      let m := loadBits s typ inst off &&& BitVec.ofNat 32 r.rw
      let keep := m ||| (if sealedPart s then sealedBits typ r.off else 0#32)
      let w := keepBits (s.reg page off) data keep &&& BitVec.ofNat 32 r.rw
      let t := if m = 0#32 then s else capture s page off 5 true (data.zeroExtend 64) src
      if m = BitVec.ofNat 32 r.rw ∧ m ≠ 0#32 then t else writeRw t page typ inst r n off w

/-- A write to a page header (R410, R412, R413). -/
def writeHeader (s : State) (src page off : Nat) (data : W32) : State :=
  match off with
  | 0x008 =>
    let t := setIrqEn s page (data.getLsbD 0)
    if data.getLsbD 1 then clearCapt t page else t
  | 0x010 => clearRaw s page data
  | 0x014 => setIntEn s page data
  | 0x018 => raiseAll s [(page, (data &&& pageBits page).toNat)]
  | _ => capture s page off (if 0x034 ≤ off then 3 else 2) true (data.zeroExtend 64) src

/-- One aligned 4-byte write to a page. -/
def write4 (s : State) (src page off : Nat) (data : W32) : State :=
  match pageKind page with
  | none => s
  | some (typ, inst) => if off < 0x040 then writeHeader s src page off data else writeReg s src page typ inst off data

/-! ### Orders (R224, R225, R241) -/

/-- Offset of `REQ.ORDER` or `REQ.HORDER`, or within one of them. -/
def isOrder (page off : Nat) : Bool := match pageKind page with
  | some (19, _) => decide (0x078 ≤ off) && decide (off < 0x088)
  | _ => false

/-- A write into an order register: from the PF captured; from the VF one of another size is dropped and counted; an operation without a row
is counted. -/
def writeOrder (s : State) (src page off size : Nat) (data : W64) : State :=
  let p := page / 256
  if src ≠ p + 1 then capture s page off 5 true data src
  else if size ≠ 8 ∨ off % 8 ≠ 0 then
    raise (countBadOrder (capture s page off 4 true data src) p) page 4
  else if off = 0x080 then
    if data.extractLsb' 30 2 = 1#2 then queueOrder s p (decodeHorder s data) else countBadOrder s p
  else
    match (data.extractLsb' 32 4).toNat with
    | 1 => acceptCancel s p (decodeOrder s 1 data)
    | 2 => queueOrder s p (decodeOrder s 2 data)
    | 3 => queueOrder s p (decodeOrder s 3 data)
    | 4 => queueOrder s p (decodeOrder s 4 data)
    | _ => countBadOrder s p

/-! ### MSI-X tables (R329, R339, R420) -/

/-- The function whose table a source reaches at a page: the PF's at 0x03F0_0000, a VF's at 0x0_8000 of its own BAR0. -/
def msixFunc (src page : Nat) : Option Nat :=
  if page = 0x3F00 ∧ src = 0 then some 0
  else if page < 0x2000 ∧ page % 256 = 8 ∧ src = page / 256 + 1 then some src
  else none

/-- A vector's mask bit; unmasked, a pending message is sent once. -/
def writeMask (s : State) (func v : Nat) (mask : Bool) : State :=
  if mask then
    if func = 0 then { s with pf := { s.pf with msixMask := Tbl.set s.pf.msixMask v true } }
    else s.updPart (func - 1) (fun x => { x with msixMask := Tbl.set x.msixMask v true })
  else unmaskVector s func v

/-- A 4-byte write to a table: the vector control word alone is state of the block. -/
def writeMsix (s : State) (func off : Nat) (data : W32) : State :=
  if 1024 ≤ off ∨ off % 16 ≠ 12 ∨ (func ≠ 0 ∧ vfOn s (func - 1) = false) then s else writeMask s func (off / 16) (data.getLsbD 0)

/-! ### The sideband (R79, R387, R421) -/

def writeSideband (s : State) (page off : Nat) (data : W32) : State :=
  if !sidebandReach s page then s
  else if page = pgTherm ∧ off = 0x05C then { s with therm := { s.therm with capW := (data.extractLsb' 0 12).toNat } }
  else if page = pgStroke ∧ off = 0x060 then
    let t := s.setReg page off data
    { t with stroke := { t.stroke with epochWritten := true } }
  else if page = pgStroke ∧ off = 0x064 then
    let t := s.setReg page off (data &&& 0xFFFF#32)
    { t with stroke := { t.stroke with epochWritten := true } }
  else s

/-! ### REGISTER_WRITE -/

/-- One 4-byte part of an access. -/
def writePart (s : State) (src page off : Nat) (data : W32) : State :=
  match msixFunc src page with
  | some f => if s.pins.perstN && s.pins.pwrGood && s.pins.pcieUp && !s.shut then writeMsix s f off data else s
  | none => if canWrite s src page then write4 s src page off data else s

/-- REGISTER_WRITE (R414 to R416): an aligned 8-byte access is two of 4 bytes, the lower address first; of another size or alignment it is
captured with KIND 4. -/
def execRegisterWrite (src page offset : Nat) (size : Nat) (data : W64) (s : State) : Host.Outcome State Fault Refusal :=
  let lo : W32 := data.extractLsb' 0 32
  if 4096 ≤ offset then .next s
  else if src = srcSideband then .next (if size = 4 then writeSideband s page offset lo else s)
  else if isOrder page offset then .next (if canWrite s src page then writeOrder s src page offset size data else s)
  else if size = 4 ∧ offset % 4 = 0 then .next (writePart s src page offset lo)
  else if size = 8 ∧ offset % 8 = 0 then
    .next (writePart (writePart s src page offset lo) src page (offset + 4) (data.extractLsb' 32 32))
  else if (msixFunc src page).isNone && canWrite s src page then
    .next (capture s page offset 4 true (if size = 8 then data else lo.zeroExtend 64) src)
  else .next s

end Sys2Proof.Machine
end

