-- ==== Sys2Proof/Machine/Flags.lean ====
section
/-! DEFINITION. Conditions: the scalar operations of ALU and the conditions of CMP (R190, R191). The block has no flag
register; predicates are its flags, and CMP, VRED ANY, CANQ, QB4 and AEVALB write them. -/

namespace Sys2Proof.Machine

/-- ALU operation imm[3:0] (R190); 14 and 15 are invalid encodings and never reach here. -/
def aluOp (op : Nat) (a b : W64) : W64 :=
  let sh := b.toNat % 64
  match op with
  | 0 => a + b
  | 1 => a - b
  | 2 => a &&& b
  | 3 => a ||| b
  | 4 => a ^^^ b
  | 5 => a <<< sh
  | 6 => a >>> sh
  | 7 => a.sshiftRight sh
  | 8 => a * b
  | 9 => BitVec.ofInt 64 (a.toInt * b.toInt / 2 ^ 64)
  | 10 => if a.toInt ≤ b.toInt then a else b
  | 11 => if a.toInt ≤ b.toInt then b else a
  | 12 => if a.toNat ≤ b.toNat then a else b
  | _ => if a.toNat ≤ b.toNat then b else a

/-- CMP condition imm[2:0] (R191); 6 and 7 are invalid encodings and never reach here. -/
def cmpCond (c : Nat) (a b : W64) : Bool :=
  match c with
  | 0 => a == b
  | 1 => a != b
  | 2 => decide (a.toInt < b.toInt)
  | 3 => decide (b.toInt ≤ a.toInt)
  | 4 => decide (a.toNat < b.toNat)
  | _ => decide (b.toNat ≤ a.toNat)

end Sys2Proof.Machine
end

