-- ==== Sys2Proof/Machine/ScribeControl.lean ====
section
/-! DEFINITION. Control flow, step end, barriers and scalar instructions (R164, R182 to R191). -/

namespace Sys2Proof.Machine

/-! ### Control flow (R182 to R184) -/

def execNop (i : Issue) (s : State) : Host.Outcome State Fault Refusal := issue .nop i s (fun _ t => .done t)

/-- JMP (R182): direct, or indirect modulo 2^14. -/
def execJmp (i : Issue) (s : State) : Host.Outcome State Fault Refusal :=
  issue .jmp i s (fun sc t =>
    .jump t (if fieldFlag i.f 0
      then ((rdG i sc i.f.src1.toNat).toNat % 2 ^ 14 + immBits i.f 0 14) % 2 ^ 14
      else immBits i.f 0 14))

/-- BRP (R182): branches where the tested predicate differs from flags[0]. -/
def execBrp (i : Issue) (s : State) : Host.Outcome State Fault Refusal :=
  issue .brp i s (fun sc t =>
    if sc.arch.p_ i.lcore i.f.src1.toNat != fieldFlag i.f 0 then .jump t (immBits i.f 0 14) else .done t)

/-- LOOP (R183): the body lies wholly inside that of every enclosing loop; a count of 0 skips it, which counts as retiring its last
index. -/
def execLoop (i : Issue) (s : State) : Host.Outcome State Fault Refusal :=
  issue .loop i s (fun sc t =>
    let n := if fieldFlag i.f 0 then (rdG i sc i.f.src1.toNat).toNat % 2 ^ 32 else immBits i.f 16 16
    let len := immBits i.f 0 14
    let last := sc.pc + len
    if sc.nInstr ≤ last ∨ sc.loops.any (fun r => decide (sc.pc + 1 < r.start) || decide (r.last < last)) then .fault fEncoding 0#64
    else if n = 0 then
      let r := loopEnd sc.loops last
      .stays (t.setScribe i.lcore { sc with loops := r.1, pc := r.2 })
    else if 4 ≤ sc.loops.length then .fault fEncoding 0#64
    else
      .stays (t.setScribe i.lcore
        { sc with loops := { start := sc.pc + 1, last := last, left := n } :: sc.loops, pc := sc.pc + 1 }))

/-! ### Check logs and the end of a step (R163, R164, R184, R185) -/

/-- Consumes the check log of array `n` of a logical core; answers its bits of the summary of R164. A failure makes the step
suspect. -/
def consumeLog (l : Nat) (acc : State × Nat) (n : Nat) : State × Nat :=
  let s := acc.1
  let k := arrayKey s l n
  let a := s.array k
  let g := a.log
  let s1 := s.setArray k { a with log := CheckLog.clear }
  let bad := g.fail || g.win
  let check := if g.fail then (if g.chkCol then 3 else 1) else 2
  let s2 := if bad then
      failCheck s1 (s.scribe l).part (mkSuspect s1 l check (.array (k / 32) (k % 32)) .all g.index 0)
    else s1
  (s2, acc.2 + (if bad then 2 ^ n else 0) + if g.unchk then 2 ^ (32 + n) else 0)

/-- Consumes the logs of the arrays whose bit is set. A HOSTED core has none: no array of it evaluates (R156). -/
def consumeLogs (s : State) (l mask : Nat) : State × Nat :=
  if arraysAct s l then
    ((List.range 32).filter (fun n => mask.testBit n)).foldl (consumeLog l) (s, 0)
  else (s, 0)

/-- Arrays of the mask that are occupied (R145, R164). -/
def arraysBusy (s : State) (l mask : Nat) : Bool :=
  arraysAct s l
  && (List.range 32).any (fun n => mask.testBit n && (s.array (arrayKey s l n)).eval.isSome)

/-- ACHK (R164): waits for the named arrays, consumes their logs, writes the summary. -/
def execAchk (i : Issue) (s : State) : Host.Outcome State Fault Refusal :=
  issue .achk i s (fun _ t =>
    let mask := i.f.imm.toNat
    if arraysBusy t i.lcore mask then .wait
    else
      let r := consumeLogs t i.lcore mask
      let sc := r.1.scribe i.lcore
      .done (r.1.setScribe i.lcore { sc with arch := sc.arch.setG i.f.dest.toNat (BitVec.ofNat 64 r.2) }))

/-- A core ends its work in the step (R164, R184, R185): once its transactions have completed and its arrays are free it
consumes the logs of its arrays, records its digest, and is READY for the status point. The digest leaves the core with what it sends and
stages, for the comparisons of R255 and R261 (R207). -/
def endStep (i : Issue) (sc : Scribe) (t : State) (halt : Bool) : Ran :=
  if !sc.txs.isEmpty || !sc.sends.isEmpty || !sc.recvs.isEmpty || !sc.receipts.isEmpty
      || arraysBusy t i.lcore 0xFFFFFFFF then .wait
  else
    let s1 := (consumeLogs t i.lcore 0xFFFFFFFF).1
    let x := s1.scribe i.lcore
    let s2 := s1.setScribe i.lcore (noteOut (leBytes 8 x.digest.toNat)
      { x with mode := if halt then .halted else .ready, loops := [], recorded := some x.digest,
               wstrkAt := some (t.stroke.base + t.stroke.count), arch := { x.arch with halted := halt } })
    .stays (tryBar s2 x.part)

def execWstrk (i : Issue) (s : State) : Host.Outcome State Fault Refusal :=
  issue .wstrk i s (fun sc t => endStep i sc t false)

def execHalt (i : Issue) (s : State) : Host.Outcome State Fault Refusal :=
  issue .halt i s (fun sc t => endStep i sc t true)

/-- BAR (R186): the core arrives, and issues nothing until the barrier releases. -/
def execBar (i : Issue) (s : State) : Host.Outcome State Fault Refusal :=
  issue .bar i s (fun sc t =>
    let s1 := retire t i.lcore
    .stays (tryBar (s1.setScribe i.lcore { s1.scribe i.lcore with atBar := true }) sc.part))

/-- FENCE (R187): waits for the core's own transactions of the kinds named. -/
def execFence (i : Issue) (s : State) : Host.Outcome State Fault Refusal :=
  issue .fence i s (fun sc t =>
    let mem := immBits i.f 0 1 = 1 && sc.txs.any (fun x => x.kind != .mesh)
    let mesh := immBits i.f 1 1 = 1 && (sc.txs.any (fun x => x.kind == .mesh) || !sc.recvs.isEmpty)
    if mem || mesh then .wait else .done t)

/-- MOVSR (R188). -/
def execMovsr (i : Issue) (s : State) : Host.Outcome State Fault Refusal :=
  issue .movsr i s (fun sc t =>
    let x := sc.special.getD (immBits i.f 0 3) 0#32
    .done (t.setScribe i.lcore (noteIn (leBytes 4 x.toNat) { sc with arch := sc.arch.setG i.f.dest.toNat (x.zeroExtend 64) })))

/-! ### Scalar instructions (R189 to R191) -/

def execLi (i : Issue) (s : State) : Host.Outcome State Fault Refusal :=
  archOp .li i s (fun sc =>
    sc.arch.setG i.f.dest.toNat
      (if fieldFlag i.f 0 then i.f.imm ++ (rdG i sc i.f.dest.toNat).extractLsb' 0 32 else i.f.imm.signExtend 64))

/-- ADDI (R189): flags[1:0] select the classes: g from g, a from g, a from a, g from a. -/
def execAddi (i : Issue) (s : State) : Host.Outcome State Fault Refusal :=
  archOp .addi i s (fun sc =>
    let k := (i.f.flags.extractLsb' 0 2).toNat
    let x := if k = 0 ∨ k = 1 then rdG i sc i.f.src1.toNat else rdA i sc i.f.src1.toNat
    let y := x + i.f.imm.signExtend 64
    if k = 0 ∨ k = 3 then sc.arch.setG i.f.dest.toNat y else sc.arch.setA i.f.dest.toNat y)

def execAlu (i : Issue) (s : State) : Host.Outcome State Fault Refusal :=
  archOp .alu i s (fun sc =>
    sc.arch.setG i.f.dest.toNat (aluOp (immBits i.f 0 4) (rdG i sc i.f.src1.toNat) (rdG i sc i.f.src2.toNat)))

def execCmp (i : Issue) (s : State) : Host.Outcome State Fault Refusal :=
  archOp .cmp i s (fun sc =>
    let y := if fieldFlag i.f 0 then (i.f.imm.extractLsb' 8 24).signExtend 64 else rdG i sc i.f.src2.toNat
    sc.arch.setP i.f.dest.toNat (cmpCond (immBits i.f 0 3) (rdG i sc i.f.src1.toNat) y))

def execSel (i : Issue) (s : State) : Host.Outcome State Fault Refusal :=
  archOp .sel i s (fun sc =>
    sc.arch.setG i.f.dest.toNat
      (if sc.arch.p_ i.lcore (immBits i.f 0 3) then rdG i sc i.f.src1.toNat else rdG i sc i.f.src2.toNat))

end Sys2Proof.Machine
end

