-- ==== Sys2Proof/Machine/ServingOps.lean ====
section
/-! DEFINITION. Serving and integrity instructions of a scribe (R201 to R204, R208). -/

namespace Sys2Proof.Machine

/-! ### REQN (R201) -/

/-- The three words of an entry of the request list. -/
def entryWords (e : ListEntry) : W64 × W64 × W64 :=
  (BitVec.ofNat 64 (e.slot + 2 ^ 16 + (if e.prefill then 2 ^ 17 else 0) + (if e.speculative then 2 ^ 18 else 0)
      + (if e.resumed then 2 ^ 19 else 0) + 2 ^ 20 * e.positions + 2 ^ 32 * e.position),
   BitVec.ofNat 64 ((match e.adapter with
      | some a => a + 2 ^ 10
      | none => 0) + 2 ^ 11 * e.priority + 2 ^ 32 * sat 32 e.delivered),
   e.seed)

/-- The request list of the step of a scribe's job. -/
def reqListOf (s : State) (p : Nat) : List ListEntry := match s.job p with
  | some j => j.reqList
  | none => []

def execReqn (i : Issue) (s : State) : Host.Outcome State Fault Refusal :=
  issue .reqn i s (fun sc t =>
    let ls := reqListOf t sc.part
    let d := i.f.dest.toNat
    let arch :=
      if fieldFlag i.f 0 then sc.arch.setG d (BitVec.ofNat 64 ls.length)
      else
        let w := match ls[(rdG i sc i.f.src1.toNat).toNat]? with
          | some e => entryWords e
          | none => (0#64, 0#64, 0#64)
        ((sc.arch.setG d w.1).setG (d + 1) w.2.1).setG (d + 2) w.2.2
    let bs := (List.range (if fieldFlag i.f 0 then 1 else 3)).flatMap (fun k => leBytes 8 (arch.g_ i.lcore (d + k)).toNat)
    .done (t.setScribe i.lcore (noteIn bs { sc with arch := arch })))

/-! ### TOKO (R202) -/

/-- End kinds of the records that a slot has staged in the step. -/
def stagedEnds (j : Job) (slot : Nat) : List Nat :=
  j.items.filterMap (fun it => match it with
    | .record sl _ _ e => if sl = slot then some e else none
    | _ => none)

def isEntry (s : State) (p : Nat) : Bool := match (s.part p).plan with
  | some pl => pl.entry
  | none => false

def execToko (i : Issue) (s : State) : Host.Outcome State Fault Refusal :=
  issue .toko i s (fun sc t =>
    let slot := (rdG i sc i.f.src1.toNat).toNat % 65536
    let r := rdG i sc i.f.src2.toNat
    match t.job sc.part with
    | none => .wait
    | some j =>
      let ends := stagedEnds j slot
      if !isEntry t sc.part || !listed j slot || decide (16 ≤ ends.length) || ends.any (fun e => e != 0) then
        .fault fEncoding 0#64
      else
        let it := Item.record slot (r.extractLsb' 0 32).toNat (r.extractLsb' 32 32).toNat (immBits i.f 0 2)
        .done ((stageItem t sc.part it).setScribe i.lcore (noteItem t it sc)))

/-! ### CANQ (R203) -/

/-- A cancel for the request in a slot of the partition has been accepted. -/
def execCanq (i : Issue) (s : State) : Host.Outcome State Fault Refusal :=
  issue .canq i s (fun sc t =>
    let x := t.slot ((rdG i sc i.f.src1.toNat).toNat % 65536)
    let b := x.part == sc.part && x.cancel.isSome
    .done (t.setScribe i.lcore (noteIn (leBytes 1 (if b then 1 else 0)) { sc with arch := sc.arch.setP i.f.dest.toNat b })))

/-! ### SPEC (R204) -/

/-- Inserts a number in ascending order, once. -/
def insertNat (n : Nat) : List Nat → List Nat
  | [] => [n]
  | x :: xs => if n < x then n :: x :: xs else if n = x then x :: xs else x :: insertNat n xs

/-- The map key of a page of a slot. -/
def keyOfPage (x : Slot) (k : Nat) : Option Nat := (x.kvMap.find? (fun (_, pg) => pg == k)).map (·.1)

/-- The draft positions of a request, by token position in ascending order: committed in DRAFT state, or staged as DRAFT in the
step (R204). -/
def draftPositions (s : State) (p slot : Nat) (j : Job) : List Nat :=
  let x := s.slot slot
  let ly := layersOf s p
  let held := x.kvMap.flatMap (fun (key, k) => match Tbl.get? (s.part p).pages k with
    | some g => if g.owner = .priv slot then
        (g.pos.filter (fun (_, st) => st == .draft)).map (fun (pos, _) => 64 * (key / ly) + pos) else []
    | none => [])
  let staged := j.items.filterMap (fun it => match it with
    | .kv sl k pos _ _ true => if sl = slot then (keyOfPage x k).map (fun key => 64 * (key / ly) + pos) else none
    | _ => none)
  (held ++ staged).foldl (fun acc n => insertNat n acc) []

/-- SPEC of the row's operation (R204); a word of the other operation is no word of the row. -/
def specOp (i : Issue) (s : State) (drop : Bool) : Host.Outcome State Fault Refusal :=
  issue .spec i s (fun sc t =>
    let slot := (rdG i sc i.f.src1.toNat).toNat % 65536
    let n := (rdG i sc i.f.src2.toNat).toNat % 65536
    match t.job sc.part with
    | none => .wait
    | some j =>
      let ds := draftPositions t sc.part slot j
      let again := j.items.any (fun it => match it with
        | .spec sl _ _ => sl == slot
        | _ => false)
      if (immBits i.f 0 1 = 1) ≠ drop then .fault fEncoding 0#64
      else if !listed j slot || again || (!drop && !outsideReplay j slot && decide (ds.length < n)) then .fault fEncoding 0#64
      else
        let it := if drop then Item.spec slot [] ds else Item.spec slot (ds.take n) (ds.drop n)
        .done ((stageItem t sc.part it).setScribe i.lcore (noteItem t it sc)))

def execSpecVerify (i : Issue) (s : State) : Host.Outcome State Fault Refusal := specOp i s false
def execSpecDrop (i : Issue) (s : State) : Host.Outcome State Fault Refusal := specOp i s true

/-! ### SUSP (R208) -/

def execSusp (i : Issue) (s : State) : Host.Outcome State Fault Refusal :=
  issue .susp i s (fun sc t =>
    let slot := (rdG i sc i.f.src1.toNat).toNat % 65536
    let u := mkSuspect t i.lcore 13 (.core (roleCore t i.lcore)) (if fieldFlag i.f 0 then .slot slot else .all) sc.pc
      (immBits i.f 0 8)
    .done (failCheck t sc.part u))

end Sys2Proof.Machine
end

