-- ==== Sys2Proof/Machine/Strokes.lean ====
section
/-! DEFINITION. The stroke time base, barrier messages and the events of a job at a boundary (R78 to R82, R86, R87, R92, R93, R99, R100,
R132, R258, R318). -/

namespace Sys2Proof.Machine

/-! ### Agreement of stroke numbers (R79) -/

/-- A mismatch raises NUM_ERR; the jobs that `held` names begin no further step. -/
def numError (s : State) (held : Job → Bool) : State :=
  let s1 := { s with stroke := { s.stroke with numErr := true } }
  raise ((s1.parts.map (·.1)).foldl (fun t p => t.updJob p (fun j => if held j then { j with numHold := true } else j)) s1)
    pgStroke 4

/-! ### Reloads (R79, R82) -/

/-- A stroke number taken down before the stroke number went from `o` to `n`, so that what has passed since stays the same. -/
def shiftNumber (o n v : Nat) : Nat := v + n - o

/-- The numbers that the device has taken down follow a reload (DESIGN CHOICE, log entry 99: the manual does not say; ages and windows
count strokes). Orders scheduled for a number keep it (R79). -/
def renumber (s : State) (n : Nat) : State :=
  let f := shiftNumber s.stroke.number n
  let g := s.integ
  let part (x : Part) : Part := { x with
    job := x.job.map (fun j => { j with openStroke := f j.openStroke })
    orders := x.orders.map (fun o => { o with stroke := f o.stroke }) }
  let core (c : PCore) : PCore := { c with
    lastSample := f c.lastSample, lastProof := f c.lastProof, taintOpen := c.taintOpen.map (fun t => (t.1, f t.2)) }
  { s with
    stroke := { s.stroke with number := n }
    parts := Tbl.mapVal (fun _ x => part x) s.parts
    slots := Tbl.mapVal (fun _ x => { x with lastListed := f x.lastListed }) s.slots
    pcores := Tbl.mapVal (fun _ c => core c) s.pcores
    integ := { g with
      history := g.history.map (fun x => (x.1, f x.2)), checks := g.checks.map (fun x => { x with stroke := f x.stroke })
      commits := g.commits.map (fun x => { x with stroke := f x.stroke, mirrored := x.mirrored.map f })
      proof := g.proof.map (fun r => { r with since := f r.since }) } }

/-- An accepted epoch mark: a reload, or the device's own check (R79). `next` says that the mark is the boundary still to come, 1 or 2
periods ahead on the device's count. -/
def epochMark (s : State) (next : Bool) : State :=
  let k := if next then 1 else 0
  if s.stroke.resync then
    let t := renumber { s with stroke := { s.stroke with resync := false } } ((epochNumber s + 2 ^ 64 - k) % 2 ^ 64)
    if next then t else (livePartsOf t).foldl refreshSpecial t
  else if (s.stroke.number + k) % 65536 = 0 then s
  else numError s (fun _ => true)

/-! ### STROKE_SYNC (R78, R79, R82) -/

/-- The device takes a wide pulse as the epoch mark and counts from there. DESIGN CHOICE (log entry 98): R82 lets the held jobs resume at the
first boundary after LOCKED returns and does not say whether the mark's own boundary is that one; here it is. -/
def lockAt (s : State) (events : List (Nat × Nat)) : State :=
  let s0 := renumber s (epochNumber s)
  let x := s0.stroke
  let s1 := { s0 with stroke := { x with
    state := .locked, base := x.base + x.count, count := 0, resync := false, syncOk := true, confirmed := true, missed := 0,
    everLocked := true, holdTicks := 0 } }
  raiseAll (enterStroke s1) events

/-- An accepted pulse at an offset from the local boundary: 0 confirms it, 1 or 2 move the count to it, and one that comes early is
itself the boundary. -/
def acceptPulse (s : State) (offset : Int) : State :=
  let slip (t : State) : State := if offset = 0 then t else
    raise { t with stroke := { t.stroke with slips := sat 16 (t.stroke.slips + 1) } } pgStroke 3
  let s1 := if offset < 0 then enterStroke (newStroke s (s.stroke.periodAct - offset.natAbs))
    else { s with stroke := { s.stroke with base := s.stroke.base + offset.toNat, count := if offset = 0 then s.stroke.count else 0 } }
  slip { s1 with stroke := { s1.stroke with syncOk := true, confirmed := true, missed := 0 } }

def nearPulse (offset : Int) : Bool := decide (-2 ≤ offset) && decide (offset ≤ 2)

/-- STROKE_SYNC_PULSE (R78): a pulse with its offset from the nearest local boundary in reference periods. -/
def execStrokeSyncPulse (wide : Bool) (offset : Int) (s : State) : Host.Outcome State Fault Refusal :=
  match s.stroke.state with
  | .stopped => .next s
  | .waitEpoch => .next (if wide then lockAt s [] else s)
  | .freeRun => .next (if wide && s.stroke.resync then lockAt s [(pgStroke, 2)] else s)
  | .holdover =>
    if wide && nearPulse offset then .next (epochMark s (decide (offset < 0))) else .next s
  | .locked =>
    if !nearPulse offset then .next { s with stroke := { s.stroke with syncOk := false } }
    else
      let s1 := acceptPulse s offset
      .next (if wide then epochMark s1 false else s1)

/-- HOLDOVER begins (R81, R82): without a phase step; all work goes on. -/
def beginHoldover (s : State) : State :=
  raise { s with stroke := { s.stroke with state := .holdover, holdTicks := 0, missed := 0 } } pgStroke 0

/-- SYNC_LOST (R78): four boundaries in a row without a confirming pulse. -/
def execSyncLost (s : State) : Host.Outcome State Fault Refusal :=
  if s.stroke.state = .locked ∧ s.stroke.confirmed = false ∧ 3 ≤ s.stroke.missed then
    .next (beginHoldover { s with stroke := { s.stroke with syncOk := false } })
  else .next s

/-- REFCLK_LOSS (R81). -/
def execRefclkLoss (s : State) : Host.Outcome State Fault Refusal :=
  let s1 := { s with stroke := { s.stroke with refOk := false } }
  .next (if s.stroke.state = .locked then beginHoldover s1 else s1)

/-- FREE_RUN begins (R82). -/
def beginFreeRun (s : State) : State :=
  raise { s with stroke := { s.stroke with state := .freeRun, syncOk := false } } pgStroke 2

/-- HOLDOVER_END (R82): REFCLK has been stable for 1 ms, and a pulse arrives. Outside holdover only REFCLK's return is noted. -/
def execHoldoverEnd (wide : Bool) (offset : Int) (s : State) : Host.Outcome State Fault Refusal :=
  let s1 := { s with stroke := { s.stroke with refOk := true } }
  if s.stroke.state ≠ .holdover then .next s1
  else if !nearPulse offset then .next (beginFreeRun s1)
  else
    let s2 := raise (acceptPulse { s1 with stroke := { s1.stroke with state := .locked, holdTicks := 0 } } offset) pgStroke 1
    .next (if wide then epochMark s2 false else s2)

/-- `STROKE.HOLD.HOLD_MAX` in reference periods; larger values act as 1,000 ms. -/
def holdMax (s : State) : Nat := min 1000 (s.field pgStroke 0x06C 0 11) * 156250

/-- HOLDOVER_EXPIRED (R82). -/
def execHoldoverExpired (s : State) : Host.Outcome State Fault Refusal :=
  if s.stroke.state ≠ .holdover then .next s
  else .next (beginFreeRun { s with stroke := { s.stroke with holdTicks := max s.stroke.holdTicks (holdMax s) } })

/-! ### Orders of `STROKE.CMD` (R79, R86, R99) -/

def strokeOrder (src bit : Nat) (act : State → State) (s : State) : State :=
  orderWrite s src pgStroke 0x070 (BitVec.ofNat 32 (2 ^ bit)) act

/-- RUN: ignored unless the state is STOPPED. -/
def execRun (src : Nat) (s : State) : Host.Outcome State Fault Refusal :=
  .next (strokeOrder src 0 (fun t =>
    if t.stroke.state = .stopped then { t with stroke := { t.stroke with state := .waitEpoch } } else t) s)

/-- STOP: refused while a plan is loaded. DESIGN CHOICE (log entry 49): in WAIT_EPOCH no boundary follows, and it acts at once. -/
def execStop (src : Nat) (s : State) : Host.Outcome State Fault Refusal :=
  .next (strokeOrder src 1 (fun t =>
    if t.parts.any (fun (_, x) => x.plan.isSome) then t
    else if strokesRun t then { t with stroke := { t.stroke with stopPend := true } }
    else { t with stroke := { t.stroke with state := .stopped } }) s)

/-- A layout word with its fields clamped (R86). -/
def clampLayout (w : W32) : W32 :=
  let f (lo bot top : Nat) : Nat := clampNat (w.extractLsb' lo 8).toNat bot top
  BitVec.ofNat 32 (f 0 2 40 + 2 ^ 8 * f 8 8 40 + 2 ^ 16 * f 16 0 100 + 2 ^ 24 * f 24 8 255)

def clampPeriod (n : Nat) : Nat := clampNat n 2500 2500000

/-- The pending switch, if there is one, lies at least 2 strokes ahead. -/
def pendAhead (s : State) : Bool := match s.stroke.pend with
  | none => true
  | some (_, _, n) => decide (s.stroke.number + 2 ≤ n)

/-- SWITCH_ARM (R86). -/
def execSwitchArm (src : Nat) (s : State) : Host.Outcome State Fault Refusal :=
  .next (strokeOrder src 2 (fun t =>
    let n := t.pair pgStroke 0x048 0x04C
    if t.stroke.number + 2 ≤ n ∧ pendAhead t then
      { t with stroke := { t.stroke with
        pend := some (clampPeriod (t.field pgStroke 0x040 0 22), clampLayout (t.reg pgStroke 0x044), n) } }
    else raise t pgStroke 6) s)

/-- SWITCH_CANCEL (R86). DESIGN CHOICE (log entry 49): without a pending switch, of which R86 says nothing, it does nothing. -/
def execSwitchCancel (src : Nat) (s : State) : Host.Outcome State Fault Refusal :=
  .next (strokeOrder src 5 (fun t =>
    if pendAhead t then { t with stroke := { t.stroke with pend := none } } else raise t pgStroke 6) s)

/-- RESYNC: in LOCKED, HOLDOVER and FREE_RUN (R79, R82). -/
def execResync (src : Nat) (s : State) : Host.Outcome State Fault Refusal :=
  .next (strokeOrder src 3 (fun t => if strokesRun t then { t with stroke := { t.stroke with resync := true } } else t) s)

/-- NUM_CLR (R79): NUM_ERR and the held set are cleared; the held jobs go on at the following boundary. -/
def execNumClr (src : Nat) (s : State) : Host.Outcome State Fault Refusal :=
  .next (strokeOrder src 4 (fun t =>
    let t1 := { t with stroke := { t.stroke with numErr := false } }
    (t1.parts.map (·.1)).foldl (fun u p => u.updJob p (fun j =>
      let c3 := j.halted && j.haltCause == 3
      { j with numHold := false, halted := j.halted && !c3, haltCause := if c3 then 0 else j.haltCause })) t1) s)

/-- PERIOD_SWITCH (R86): at its boundary, or at a reload that passed it (R79). -/
def execPeriodSwitch (s : State) : Host.Outcome State Fault Refusal :=
  match s.stroke.pend with
  | none => .next s
  | some (p, w, n) =>
    if strokesRun s ∧ s.stroke.count = 0 ∧ n ≤ s.stroke.number then
      .next (raise { s with stroke := { s.stroke with periodAct := p, layoutAct := w, pend := none } } pgStroke 5)
    else .next s

/-! ### Status and decision (R87, R316, R318) -/

/-- The status of one job: sent to the entry device, which keeps its own. The first status point after a step's boundary is that at which it
is first due (R97). A job of several devices that has not begun tells the entry device that it is loaded (R135; log entry 98). -/
def statusOf (s : State) (p : Nat) : State :=
  match s.job p with
  | none => s
  | some j =>
    if j.inStep then
      let st := ownStatus s p j
      let y : Job := { j with
        statusSent := some st
        dueAt := if j.total = 0 ∧ j.hold.isNone ∧ !j.inserting then s.stroke.base + s.stroke.count else j.dueAt }
      s.setJob p { y with statuses := if decides s p j then putStatus j.statuses st else j.statuses }
    else if multiDevice j && !j.joined then
      s.setJob p { j with
        statusSent := some (waitingStatus s p j), heard := if decides s p j then (j.pos :: j.heard).dedup else j.heard }
    else s

/-- STATUS_POINT (R83, R87). -/
def execStatusPoint (s : State) : Host.Outcome State Fault Refusal :=
  if !strokesRun s || s.shut || decide (statusAt s < s.stroke.count) then .next s
  else .next ((s.parts.map (·.1)).foldl statusOf (advanceTo s (statusAt s)))

/-- The entry device has heard of every device of the block. -/
def allHeard (j : Job) : Bool := (List.range j.block.length).all (fun k => j.heard.contains k)

/-- The decision by which the entry device tells the block that every device has loaded the job (R135; log entry 98). -/
def joinDecision : Decision :=
  { commit := false, stepNo := 0, holds := [], holdAll := false, adopt := false, switch_ := false, paired := false, refused := false }

/-- The decision of one job, where this device is the one that decides. -/
def decisionOf (s : State) (p : Nat) : State :=
  match s.job p with
  | none => s
  | some j =>
    if !decides s p j then s
    else if j.inStep && j.decision.isNone then s.setJob p { j with decision := some (decide87 j) }
    else if !j.inStep && multiDevice j && !j.joined && allHeard j then
      s.setJob p { j with joined := true, decision := some joinDecision }
    else s

/-- DECISION_POINT (R83, R87). -/
def execDecisionPoint (s : State) : Host.Outcome State Fault Refusal :=
  if !strokesRun s || s.shut || decide (decisionAt s < s.stroke.count) then .next s
  else .next ((s.parts.map (·.1)).foldl decisionOf (advanceTo s (decisionAt s)))

/-- Jobs whose block includes a device. -/
def blockHas (dev : Nat) (j : Job) : Bool := multiDevice j && j.block.contains dev

/-- STATUS_MESSAGE (R79, R87): at the entry device. One with another stroke number is discarded. -/
def execStatusMessage (part : Nat) (m : StatusMsg) (s : State) : Host.Outcome State Fault Refusal :=
  match s.job part with
  | none => .next s
  | some j =>
    if !multiDevice j || notEntry s part || decide (j.block.length ≤ m.position) || !strokesRun s then .next s
    else if m.number % 65536 ≠ s.stroke.number % 65536 then
      .next (numError s (blockHas (j.block.getD m.position 0)))
    else if j.inStep = false then
      .next (if j.joined then s else s.setJob part { j with heard := (m.position :: j.heard).dedup })
    else
      let st : Status := { position := m.position, ready := m.ready, stepNo := m.stepNo, holds := m.holds, holdAll := m.holdAll,
                           lost := m.lost, paired := m.paired, canSwitch := m.canSwitch, refused := m.refused }
      .next (s.setJob part { j with statuses := putStatus j.statuses st })

/-- The coordinate of a job's entry device (`LINK.JOB_ENTRY`). -/
def entryCoord (s : State) (p : Nat) : Nat := ((s.jobReg p 0x128).extractLsb' 0 13).toNat

/-- A decision's stroke number agrees: the sender's, or that of the stroke before for one that arrives late (R87). -/
def decisionFits (s : State) (n : Nat) : Bool :=
  n % 65536 == s.stroke.number % 65536 || (n + 1) % 65536 == s.stroke.number % 65536

/-- DECISION_MESSAGE (R87, R318): from the entry device, or the partner's as the buddy forwards it. -/
def execDecisionMessage (part : Nat) (m : DecisionMsg) (s : State) : Host.Outcome State Fault Refusal :=
  match s.job part with
  | none => .next s
  | some j =>
    if !strokesRun s then .next s
    else if m.buddy then
      if (s.part part).pair.state ≠ .paired then .next s
      else if !decisionFits s m.number then .next (numError s (blockHas s.link.buddy))
      else .next (setPair s part (fun r => { r with peerDecision := m.commit }))
    else if decides s part j then .next s
    else if !decisionFits s m.number then .next (numError s (blockHas (entryCoord s part)))
    else if j.inStep = false ∧ j.joined = false then
      .next (if m.stepNo = 0 ∧ m.commit = false then s.setJob part { j with joined := true } else s)
    else if j.inStep = false ∨ m.stepNo ≠ curStep j then .next s
    else
      let d : Decision := { commit := m.commit, stepNo := m.stepNo, holds := m.holds, holdAll := m.holdAll, adopt := m.adopt,
                            switch_ := m.switch, paired := m.paired, refused := m.refused }
      .next (s.setJob part { j with decision := some d })

/-! ### Events of a job at a boundary (R92, R93, R132, R258) -/

/-- JOB_START (R79, R132). -/
def execJobStart (part : Nat) (s : State) : Host.Outcome State Fault Refusal :=
  match (s.part part).plan, s.job part with
  | some pl, some j =>
    if atBoundary s && !j.started && decide (pl.startAt ≤ s.stroke.number) then
      .next (selectSamples (startNext (s.setJob part { j with started := true }) part) part)
    else .next s
  | _, _ => .next s

/-- `STROKE.PPOLp.MAX_SPAN`: 0 and 1 act as 2. -/
def maxSpan (s : State) (p : Nat) : Nat := max 2 (s.field pgStroke (0x100 + 0x20 * p) 4 4)
def relax (s : State) (p : Nat) : Nat := max 1 (s.field pgStroke (0x100 + 0x20 * p) 8 8)

/-- The job halts with cause 1: its requests stay in their slots (R93). -/
def haltAbandoned (s : State) (p : Nat) (j : Job) : State :=
  let y : Job := { j with inStep := false, items := [], suspects := [], fault := none, decision := none, statuses := [] }
  let s1 := (stopScribes s p).setJob p { y with halted := true, haltCause := 1, resumeReq := false }
  raiseAll s1 [(pgStroke, 2 ^ 11), (pgFunc p, 2 ^ 4)]

/-- An abandoned step: its results are discarded, and it restarts; abandoned again, the job halts (R93). -/
def abandonStep (s : State) (p : Nat) (j : Job) : State :=
  let s1 := raise s pgStroke 10
  if j.inserting then startNext (endInserted s1 p j) p
  else if j.abandoned then haltAbandoned s1 p j
  else
    let y : Job := { j with inStep := false, items := [], suspects := [], fault := none, decision := none, statuses := [] }
    startNext (unloadBoundary (s1.setJob p { y with abandoned := true }) p) p

/-- The device holds a COMMIT of the step: it is not abandoned (R93, R318). -/
def commitHeld (j : Job) : Bool := j.decision.any (fun d => d.commit && d.stepNo == curStep j)

/-- SPAN_ABANDON (R93): holds count towards neither MAX_SPAN nor STRETCH_RUN (R94). -/
def execSpanAbandon (part : Nat) (s : State) : Host.Outcome State Fault Refusal :=
  match s.job part with
  | none => .next s
  | some j =>
    if atBoundary s && j.inStep && j.hold.isNone && !commitHeld j && decide (maxSpan s part ≤ j.span) then
      .next (abandonStep s part j)
    else .next s

/-- PHALT_RESUME (R93, R100): acts only after cause 1. -/
def execPhaltResume (src part : Nat) (s : State) : Host.Outcome State Fault Refusal :=
  .next (orderWrite s src pgStroke (0x118 + 0x20 * part) 0x80000000#32 (fun t =>
    t.updJob part (fun j => if j.halted && j.haltCause == 1 then { j with resumeReq := true } else j)))

/-- PPOL_WRITE (R92): the policy takes effect at the next step, and automatic PARTIAL is cleared. -/
def execPpolWrite (src part : Nat) (data : W32) (s : State) : Host.Outcome State Fault Refusal :=
  .next (orderWrite s src pgStroke (0x100 + 0x20 * part) data (fun t => t.updJob part (fun j => { j with auto := false })))

/-- No step of the job runs on over this boundary, unless it is held, or the partner's. -/
def betweenSteps (s : State) (j : Job) : Bool := !j.inStep || j.hold.isSome || j.inserting || j.openStroke == s.stroke.number

/-- Sets automatic PARTIAL from the step that begins at this boundary. -/
def setAuto (s : State) (p : Nat) (j : Job) (on : Bool) : State :=
  let fresh := j.inStep && j.hold.isNone && !j.inserting && j.openStroke == s.stroke.number
  s.setJob p { j with auto := on, partialPol := if fresh then policyPartial s p || on else j.partialPol }

/-- AUTO_PARTIAL_ON (R92). -/
def execAutoPartialOn (part : Nat) (s : State) : Host.Outcome State Fault Refusal :=
  match s.job part with
  | none => .next s
  | some j =>
    if atBoundary s && betweenSteps s j && !policyPartial s part && (s.reg pgStroke (0x100 + 0x20 * part)).getLsbD 2
        && !j.auto && decide (2 ≤ j.strRun) then .next (raise (setAuto s part j true) pgStroke 8)
    else .next s

/-- AUTO_PARTIAL_OFF (R92). -/
def execAutoPartialOff (part : Nat) (s : State) : Host.Outcome State Fault Refusal :=
  match s.job part with
  | none => .next s
  | some j =>
    if atBoundary s && betweenSteps s j && j.auto && decide (relax s part ≤ j.cleanRun) then
      .next (raise (setAuto s part j false) pgStroke 9)
    else .next s

/-- SUSPECT_HOLD_LIMIT (R258): the fourth boundary after B0. -/
def execSuspectHoldLimit (part : Nat) (s : State) : Host.Outcome State Fault Refusal :=
  match s.job part with
  | none => .next s
  | some j =>
    match j.hold with
    | none => .next s
    | some h =>
      if atBoundary s && decide (4 ≤ h.age) then .next (startNext (freeze s part j h) part) else .next s

end Sys2Proof.Machine
end

