-- ==== Sys2Proof/Machine/TrimTraining.lean ====
section
/-! DEFINITION. Trim adapters: the correction (R68), and their training from captured positions (R60, R67 to R71, R76). -/

namespace Sys2Proof.Machine

/-! ### Fair copy targets (R60, R64, R65) -/

/-- Column scale j of tile t (R275). -/
def Image.scale (im : Image) (t j : Nat) : W32 :=
  BitVec.ofNat 32 (leNat (Mem.readBytes im.bytes (leNat (Mem.readBytes im.bytes 0x48 8) + 2048 * t + 4 * j) 4))

/-- f_j of a tile for a slice in its granted format. -/
def tileFair (im : Image) (sl : W64 × List Int) (t j : Nat) : Int := fcColumn sl.1 (driveOf sl.1 sl.2) (im.code t) j

/-- Output j of a projection by fair copy: one rounding of the exact sum over the row tiles, or tile by tile in route order. -/
def fairOutput (im : Image) (c : Capture) (j : Nat) : W32 :=
  let rows := c.tiles.getD (j / 512) []
  let parts := List.zipWith (fun t (sl : W64 × List Int) => (tileFair im sl t (j % 512), im.scale t (j % 512), hdrEref sl.1 - 7)) rows c.slices
  match parts with
  | [] => 0#32
  | p :: ps =>
    if c.fp32 then
      (ps.map (fun (f, g, k) => scaleF32 f g k)).foldl fAdd (scaleF32 p.1 p.2.1 p.2.2)
    else scaleF32 ((p :: ps).map (fun x => x.1)).sum p.2.1 p.2.2

/-! ### The correction (R68) -/

/-- The sum of a row of A over the slices, as an integer in units of a power of two. -/
def rowSumOf (a : List Int) (slices : List (W64 × List Int)) : Int × Int :=
  let parts := slices.zipIdx.map (fun (sl, q) =>
    let w := fun i => a.getD (512 * q + i) 0
    match driveOf sl.1 sl.2 with
    | .narrow p => (dotFrom w 0 p, hdrEref sl.1 - 3)
    | .broad hi lo => (16 * dotFrom w 0 hi + dotFrom w 0 lo, hdrEref sl.1 + hdrEup sl.1 - 7))
  let e := parts.foldl (fun m x => min m x.2) (match parts with
    | [] => 0
    | x :: _ => x.2)
  ((parts.map (fun x => x.1 * 2 ^ (x.2 - e).toNat)).sum, e)

/-- u, and its dynamic B4 block: mantissas and header. -/
def trimU (v : TrimVer) (slices : List (W64 × List Int)) : List W32 :=
  (List.range v.rank).map (fun k =>
    let r := rowSumOf ((v.a.drop (k * v.nIn)).take v.nIn) slices
    scaleF32 r.1 (v.alpha.getD k 0#32) r.2)
def quantU (u : List W32) : List Int × W64 :=
  qb4 ((u ++ List.replicate (32 - u.length) 0#32).map Src.of32) none 0xFFFFFFFF#32

/-- y_corr. -/
def trimCorrected (v : TrimVer) (slices : List (W64 × List Int)) (y : List W32) : List W32 :=
  if v.rank = 0 then y
  else
    let q := quantU (trimU v slices)
    let p := drives q.2 q.1
    y.zipIdx.map (fun (x, j) =>
      fAdd x (scaleF32 (dotFrom (fun k => if k < v.rank then v.b.getD (j * v.rank + k) 0 else 0) 0 p) (v.beta.getD j 0#32)
        (hdrEref q.2 - 3)))

/-! ### Gradients (R69) -/

/-- deq of the elements of a B4 block and of B8 slices: exact, and in fp32. -/
def deq4 (q : List Int × W64) : List W32 :=
  q.1.zipIdx.map (fun (m, i) => rneInt m (hdrEref q.2 - hdrDoff q.2 (i / 32)))
def deq8 (q : List Int × W64) : List W32 :=
  q.1.zipIdx.map (fun (m, i) => rneInt m (hdrEref q.2 + hdrEup q.2 - 4 - hdrDoff q.2 (i / 32)))

/-- qb8 of a vector, dynamic, slice by slice, with e_ref from a dynamic qb4 of the slice. -/
def quantB8 (xs : List W32) : List W32 :=
  ((List.range ((xs.length + 511) / 512)).flatMap (fun n =>
    let sl := ((xs.drop (512 * n)).take 512).map Src.of32
    deq8 (qb8 sl (hdrEref (qb4 sl none 0xFFFFFFFF#32).2)))).take xs.length

/-- One position's part of the gradients of A and B. -/
def gradStep (v : TrimVer) (m : TrimMasters) (g : List W32 × List W32) (c : TrimCapt) : List W32 × List W32 :=
  let uq := deq4 (quantU (trimU v c.slices))
  let e := List.zipWith fSub (trimCorrected v c.slices c.y) c.target
  let eq := quantB8 e
  let gb := g.2.zipIdx.map (fun (x, n) => fAdd x (fMul (eq.getD (n / v.rank) 0#32) (uq.getD (n % v.rank) 0#32)))
  let vs := (List.range v.rank).map (fun k =>
    (List.range v.nOut).foldl (fun acc j => fAdd acc (fMul (m.b.getD (j * v.rank + k) 0#32) (eq.getD j 0#32))) 0#32)
  let vq := quantB8 vs
  let ga := g.1.zipIdx.map (fun (x, n) => fAdd x (fMul (vq.getD (n / v.nIn) 0#32) (c.x.getD (n % v.nIn) 0#32)))
  (ga, gb)

/-- A master element after the batch: less eta times its gradient over 56. -/
def descend (eta : W32) (w g : W32) : W32 := fSub w (fDiv (fMul eta g) (intToF32 56))

/-- int4 of one row, with its scale: the greatest magnitude over 7, nearest, ties to even as in R55. -/
def int4Row (ctr : Nat) (row : List W32) : List Int × W32 :=
  let top := row.foldl (fun m x => fMax m (fAbs x)) 0#32
  let scale := fDiv top (intToF32 7)
  if row.all fIsFinite then
    (row.map (fun x => match fval x, fval scale with
      | .fin neg m e, .fin _ m2 e2 =>
        if m2 = 0 then 0
        else
          let d := e - e2
          clampInt (if 0 ≤ d then roundHalfEven (sint neg m * 2 ^ d.toNat) m2 else roundHalfEven (sint neg m) (m2 * 2 ^ (-d).toNat)) (-7) 7
      | _, _ => 0), scale)
  else (row.zipIdx.map (fun (_, i) => clampInt (Config.trimElem (ctr + i)) (-8) 7), scale)

def rowsOf (n : Nat) (xs : List W32) (rows : Nat) : List (List W32) := (List.range rows).map (fun k => (xs.drop (k * n)).take n)

/-- The working copies that masters give. -/
def versionOf (ctr : Nat) (pr : Proj) (m : TrimMasters) : TrimVer :=
  let ra := (rowsOf pr.nIn m.a m.rank).map (int4Row ctr)
  let rb := (rowsOf m.rank m.b pr.nOut).map (int4Row ctr)
  { rank := m.rank, nIn := pr.nIn, nOut := pr.nOut, a := ra.flatMap (·.1), alpha := ra.map (·.2), b := rb.flatMap (·.1),
    beta := rb.map (·.2) }

/-! ### The held-out comparison (R69) -/

/-- The exact square of an fp32 value in units of 2^-298; none of a NaN or an infinity. -/
def squareOf (x : W32) : Option Nat := match fval x with
  | .fin _ m e => some ((m * 2 ^ (e + 149).toNat) ^ 2)
  | _ => none

def sumSquares : List W32 → Option Nat
  | [] => some 0
  | x :: xs => match squareOf x, sumSquares xs with
    | some a, some b => some (a + b)
    | _, _ => none

/-- Squared error of a version over positions: they are as many for both versions, so the sums compare as the means do. -/
def heldError (v : TrimVer) (cs : List TrimCapt) : Option Nat :=
  sumSquares (cs.flatMap (fun c => List.zipWith fSub (trimCorrected v c.slices c.y) c.target))

/-! ### TRIM_ADAPTER_TRAINING -/

/-- A captured position joins the batch, with its fair copy target; up to 64 (R69, R71). -/
def captureTrim (s : State) (p k : Nat) (pr : Proj) (c : Capture) : State :=
  let t := s.trim p k
  match (s.part p).curImage with
  | none => s
  | some im =>
    if 64 ≤ t.captures.length ∨ c.x.length ≠ pr.nIn ∨ c.y.length ≠ pr.nOut then s
    else match poolPlace s (s.part p) (4 * (pr.nIn + pr.nOut)) with
      | none => s
      | some (off, s1) =>
        let z : TrimCapt := { x := c.x, slices := c.slices, y := c.y, target := (List.range pr.nOut).map (fairOutput im c), offset := off }
        s1.setTrim p k { t with captures := t.captures ++ [z], tiles := (t.tiles ++ c.tiles.flatten).dedup }

/-- A version is rejected, and its batch is gone (R69, R71, R76). -/
def rejectTrim (s : State) (p k : Nat) : State :=
  let t := s.trim p k
  s.setTrim p k { t with last := 2, rejected := sat 8 (t.rejected + 1), captures := [] }

/-- A version is accepted and placed; it takes effect at the next boundary (R70). -/
def acceptTrim (s : State) (p k : Nat) (v : TrimVer) (m : TrimMasters) : State :=
  match poolPlace s (s.part p) v.length with
  | none => rejectTrim s p k
  | some (off, s1) =>
    let t := s1.trim p k
    raise (s1.setTrim p k { t with
      last := 1, active := true, accepted := sat 8 (t.accepted + 1), pending := some (off, v), masters := some m, captures := [] })
      pgCal 3

/-- The masters that training goes on from: those of the rank, or fresh ones where there are none (log entry 31). -/
def mastersFor (s : State) (p k rank : Nat) (pr : Proj) : Option (TrimMasters × State) :=
  let t := s.trim p k
  match t.masters.filter (fun m => m.rank == rank) with
  | some m => some (m, s)
  | none =>
    match poolPlace s (s.part p) (4 * rank * (pr.nIn + pr.nOut)) with
    | none => none
    | some (off, s1) =>
      let v := Config.trimInit s1.freeCtr
      some ({ rank := rank, a := (List.range (rank * pr.nIn)).map v
              b := (List.range (pr.nOut * rank)).map (fun i => v (rank * pr.nIn + i)), offset := off }, s1.nextFree)

/-- A batch is trained and judged: the new version is accepted if its error on the held-out positions does not exceed that of the version
in service, or of the uncorrected output while there is none; an error that is not finite leaves it open. -/
def trainTrim (s : State) (p k rank : Nat) (pr : Proj) (eta : W32) (held : List Nat) : State :=
  match mastersFor s p k rank pr with
  | none => rejectTrim s p k
  | some (m, s1) =>
    let t := s1.trim p k
    let out := held.filterMap (fun i => t.captures[i]?)
    let fit := (t.captures.zipIdx.filter (fun (_, i) => !held.contains i)).map (·.1)
    let v := versionOf s1.freeCtr pr m
    let g := fit.foldl (gradStep v m) (m.a.map (fun _ => 0#32), m.b.map (fun _ => 0#32))
    let m1 : TrimMasters := { m with a := List.zipWith (descend eta) m.a g.1, b := List.zipWith (descend eta) m.b g.2 }
    let v1 := versionOf (s1.freeCtr + 65536) pr m1
    let ok := match heldError v1 out, heldError t.version out with
      | some a, some b => decide (a ≤ b)
      | _, _ => s1.freeNat 2 == 1
    if ok then acceptTrim s1.nextFree p k v1 m1 else rejectTrim s1.nextFree p k

/-- TRIM_ADAPTER_TRAINING (R69, R71) for projection `proj` of the plan's table: a position is captured, or the batch is trained, with 8 of
its positions held out, at a rank and a step size of the device's choice (log entry 31). -/
def execTrimAdapterTraining (part proj rank : Nat) (w : TrimWork) (s : State) : Host.Outcome State Fault Refusal :=
  let t := s.trim part proj
  match (planProjs (s.part part))[proj]? with
  | none => .next s
  | some pr =>
    if !t.en then .next s
    else match w with
      | .capture c => .next (captureTrim s part proj pr c)
      | .train eta held =>
        if rank == 0 || decide (min 16 t.rankMax < rank) || held.length != 8 || !decide held.Nodup
            || !held.all (fun i => decide (i < t.captures.length)) then .next s
        else .next (trainTrim s part proj rank pr eta held)

end Sys2Proof.Machine
end

