-- ==== Sys2Proof/Machine/Dispatch.lean ====
section
/-! DEFINITION. One arm per command: the meaning of each, called directly. -/

namespace Sys2Proof.Machine

def exec (i : Instr) (s : State) : Host.Outcome State Fault Refusal :=
  match i with
  | .aeval x => Sys2Proof.Machine.execAeval x s
  | .aevalb x => Sys2Proof.Machine.execAevalb x s
  | .athr x => Sys2Proof.Machine.execAthr x s
  | .arange x => Sys2Proof.Machine.execArange x s
  | .arefc x => Sys2Proof.Machine.execArefc x s
  | .achk x => Sys2Proof.Machine.execAchk x s
  | .aproof x => Sys2Proof.Machine.execAproof x s
  | .qb4 x => Sys2Proof.Machine.execQb4 x s
  | .qb8 x => Sys2Proof.Machine.execQb8 x s
  | .dqcAlignN x => Sys2Proof.Machine.execDqcAlignN x s
  | .dqcAlignB x => Sys2Proof.Machine.execDqcAlignB x s
  | .dqcScale x => Sys2Proof.Machine.execDqcScale x s
  | .cvt x => Sys2Proof.Machine.execCvt x s
  | .ldv x => Sys2Proof.Machine.execLdv x s
  | .stv x => Sys2Proof.Machine.execStv x s
  | .dmar x => Sys2Proof.Machine.execDmar x s
  | .dmaw x => Sys2Proof.Machine.execDmaw x s
  | .mimg x => Sys2Proof.Machine.execMimg x s
  | .kvap x => Sys2Proof.Machine.execKvap x s
  | .kvgt x => Sys2Proof.Machine.execKvgt x s
  | .transactionDone lcore id => Sys2Proof.Machine.execTransactionDone lcore id s
  | .send x => Sys2Proof.Machine.execSend x s
  | .mcast x => Sys2Proof.Machine.execMcast x s
  | .recv x => Sys2Proof.Machine.execRecv x s
  | .rendezvousRequest lcore r => Sys2Proof.Machine.execRendezvousRequest lcore r s
  | .rendezvousAnswer lcore id peer => Sys2Proof.Machine.execRendezvousAnswer lcore id peer s
  | .recvDataArrival lcore id data => Sys2Proof.Machine.execRecvDataArrival lcore id data s
  | .ligContribution x => Sys2Proof.Machine.execLigContribution x s
  | .ligReceiptMerge x => Sys2Proof.Machine.execLigReceiptMerge x s
  | .ligReceiptChain x => Sys2Proof.Machine.execLigReceiptChain x s
  | .nop x => Sys2Proof.Machine.execNop x s
  | .jmp x => Sys2Proof.Machine.execJmp x s
  | .brp x => Sys2Proof.Machine.execBrp x s
  | .loop x => Sys2Proof.Machine.execLoop x s
  | .halt x => Sys2Proof.Machine.execHalt x s
  | .wstrk x => Sys2Proof.Machine.execWstrk x s
  | .bar x => Sys2Proof.Machine.execBar x s
  | .fence x => Sys2Proof.Machine.execFence x s
  | .movsr x => Sys2Proof.Machine.execMovsr x s
  | .li x => Sys2Proof.Machine.execLi x s
  | .alu x => Sys2Proof.Machine.execAlu x s
  | .addi x => Sys2Proof.Machine.execAddi x s
  | .cmp x => Sys2Proof.Machine.execCmp x s
  | .sel x => Sys2Proof.Machine.execSel x s
  | .mma8 x => Sys2Proof.Machine.execMma8 x s
  | .mma4 x => Sys2Proof.Machine.execMma4 x s
  | .mmah x => Sys2Proof.Machine.execMmah x s
  | .vfma x => Sys2Proof.Machine.execVfma x s
  | .valu x => Sys2Proof.Machine.execValu x s
  | .vred x => Sys2Proof.Machine.execVred x s
  | .vexp x => Sys2Proof.Machine.execVexp x s
  | .vrsq x => Sys2Proof.Machine.execVrsq x s
  | .topk x => Sys2Proof.Machine.execTopk x s
  | .samp x => Sys2Proof.Machine.execSamp x s
  | .reqn x => Sys2Proof.Machine.execReqn x s
  | .toko x => Sys2Proof.Machine.execToko x s
  | .canq x => Sys2Proof.Machine.execCanq x s
  | .specVerify x => Sys2Proof.Machine.execSpecVerify x s
  | .specDrop x => Sys2Proof.Machine.execSpecDrop x s
  | .blotStage x => Sys2Proof.Machine.execBlotStage x s
  | .blotRead x => Sys2Proof.Machine.execBlotRead x s
  | .dgst x => Sys2Proof.Machine.execDgst x s
  | .susp x => Sys2Proof.Machine.execSusp x s
  | .fcpy x => Sys2Proof.Machine.execFcpy x s
  | .arrayDelivery key hi lo => Sys2Proof.Machine.execArrayDelivery key hi lo s
  | .trackingWindowEnd key => Sys2Proof.Machine.execTrackingWindowEnd key s
  | .flitReceived core port crc f => Sys2Proof.Machine.execFlitReceived core port crc f s
  | .meshRetryExhausted core port => Sys2Proof.Machine.execMeshRetryExhausted core port s
  | .meshCreditTimeout core port => Sys2Proof.Machine.execMeshCreditTimeout core port s
  | .ligSlotTimeout core tag stepTag => Sys2Proof.Machine.execLigSlotTimeout core tag stepTag s
  | .ligReceiptTimeout lcore tag => Sys2Proof.Machine.execLigReceiptTimeout lcore tag s
  | .routerFault core port found => Sys2Proof.Machine.execRouterFault core port found s
  | .routeTableSwitch => Sys2Proof.Machine.execRouteTableSwitch s
  | .crossingSwitchDone region => Sys2Proof.Machine.execCrossingSwitchDone region s
  | .crossingMesochronous region side => Sys2Proof.Machine.execCrossingMesochronous region side s
  | .fenceOnly src pcore => Sys2Proof.Machine.execFenceOnly src pcore s
  | .fenceAndReplace src pcore => Sys2Proof.Machine.execFenceAndReplace src pcore s
  | .migrate src pcore => Sys2Proof.Machine.execMigrate src pcore s
  | .strokeBoundary => Sys2Proof.Machine.execStrokeBoundary s
  | .statusPoint => Sys2Proof.Machine.execStatusPoint s
  | .decisionPoint => Sys2Proof.Machine.execDecisionPoint s
  | .statusMessage part m => Sys2Proof.Machine.execStatusMessage part m s
  | .decisionMessage part m => Sys2Proof.Machine.execDecisionMessage part m s
  | .spanAbandon part => Sys2Proof.Machine.execSpanAbandon part s
  | .autoPartialOn part => Sys2Proof.Machine.execAutoPartialOn part s
  | .autoPartialOff part => Sys2Proof.Machine.execAutoPartialOff part s
  | .suspectHoldLimit part => Sys2Proof.Machine.execSuspectHoldLimit part s
  | .strokeSyncPulse wide offset => Sys2Proof.Machine.execStrokeSyncPulse wide offset s
  | .syncLost => Sys2Proof.Machine.execSyncLost s
  | .refclkLoss => Sys2Proof.Machine.execRefclkLoss s
  | .holdoverEnd wide offset => Sys2Proof.Machine.execHoldoverEnd wide offset s
  | .holdoverExpired => Sys2Proof.Machine.execHoldoverExpired s
  | .periodSwitch => Sys2Proof.Machine.execPeriodSwitch s
  | .jobStart part => Sys2Proof.Machine.execJobStart part s
  | .run src => Sys2Proof.Machine.execRun src s
  | .stop src => Sys2Proof.Machine.execStop src s
  | .switchArm src => Sys2Proof.Machine.execSwitchArm src s
  | .switchCancel src => Sys2Proof.Machine.execSwitchCancel src s
  | .resync src => Sys2Proof.Machine.execResync src s
  | .numClr src => Sys2Proof.Machine.execNumClr src s
  | .phaltResume src part => Sys2Proof.Machine.execPhaltResume src part s
  | .ppolWrite src part data => Sys2Proof.Machine.execPpolWrite src part data s
  | .intake reads => Sys2Proof.Machine.execIntake reads s
  | .requestDescriptor part desc => Sys2Proof.Machine.execRequestDescriptor part desc s
  | .cancel src part data => Sys2Proof.Machine.execCancel src part data s
  | .pause src part data => Sys2Proof.Machine.execPause src part data s
  | .resume src part data => Sys2Proof.Machine.execResume src part data s
  | .priority src part data => Sys2Proof.Machine.execPriority src part data s
  | .release src part data => Sys2Proof.Machine.execRelease src part data s
  | .cqConsWrite src part data => Sys2Proof.Machine.execCqConsWrite src part data s
  | .parkCopyDone slot => Sys2Proof.Machine.execParkCopyDone slot s
  | .resumeReady slot ok => Sys2Proof.Machine.execResumeReady slot ok s
  | .parkTtlExpired slot => Sys2Proof.Machine.execParkTtlExpired slot s
  | .handleTtlExpired handle => Sys2Proof.Machine.execHandleTtlExpired handle s
  | .sampleCompare id found => Sys2Proof.Machine.execSampleCompare id found s
  | .taintReportWrite => Sys2Proof.Machine.execTaintReportWrite s
  | .taintConsWrite src data => Sys2Proof.Machine.execTaintConsWrite src data s
  | .proofPart => Sys2Proof.Machine.execProofPart s
  | .proofPartJudge n own other => Sys2Proof.Machine.execProofPartJudge n own other s
  | .proofDeadline => Sys2Proof.Machine.execProofDeadline s
  | .proofNext src data => Sys2Proof.Machine.execProofNext src data s
  | .thaw src => Sys2Proof.Machine.execThaw src s
  | .imageLoad src data => Sys2Proof.Machine.execImageLoad src data s
  | .reload src data => Sys2Proof.Machine.execReload src data s
  | .imageDone image => Sys2Proof.Machine.execImageDone image s
  | .discardNext src data => Sys2Proof.Machine.execDiscardNext src data s
  | .program src data => Sys2Proof.Machine.execProgram src data s
  | .roll src data => Sys2Proof.Machine.execRoll src data s
  | .refresh src data => Sys2Proof.Machine.execRefresh src data s
  | .erase src data => Sys2Proof.Machine.execErase src data s
  | .writeSlotStart => Sys2Proof.Machine.execWriteSlotStart s
  | .writeSlotDone key ok => Sys2Proof.Machine.execWriteSlotDone key ok s
  | .offlineChangeComplete part => Sys2Proof.Machine.execOfflineChangeComplete part s
  | .rollSwitch part => Sys2Proof.Machine.execRollSwitch part s
  | .arrayVerifyDone key ok => Sys2Proof.Machine.execArrayVerifyDone key ok s
  | .calOrder src data => Sys2Proof.Machine.execCalOrder src data s
  | .calibrationEvaluation key => Sys2Proof.Machine.execCalibrationEvaluation key s
  | .calibrationDone key first second => Sys2Proof.Machine.execCalibrationDone key first second s
  | .trimAdapterTraining part proj rank w => Sys2Proof.Machine.execTrimAdapterTraining part proj rank w s
  | .adapterLoad src part data => Sys2Proof.Machine.execAdapterLoad src part data s
  | .adapterUnload src part data => Sys2Proof.Machine.execAdapterUnload src part data s
  | .adapterLoadDone part image => Sys2Proof.Machine.execAdapterLoadDone part image s
  | .planLoad src part data => Sys2Proof.Machine.execPlanLoad src part data s
  | .planLoadDone part image => Sys2Proof.Machine.execPlanLoadDone part image s
  | .planUnload src part data => Sys2Proof.Machine.execPlanUnload src part data s
  | .linkBlockReceived port b => Sys2Proof.Machine.execLinkBlockReceived port b s
  | .linkPortDown port los => Sys2Proof.Machine.execLinkPortDown port los s
  | .portTrainingDone port r => Sys2Proof.Machine.execPortTrainingDone port r s
  | .autoRetrain port => Sys2Proof.Machine.execAutoRetrain port s
  | .retrain src port => Sys2Proof.Machine.execRetrain src port s
  | .portDisable src port data => Sys2Proof.Machine.execPortDisable src port data s
  | .packetReceived port vc => Sys2Proof.Machine.execPacketReceived port vc s
  | .routeAnnouncement id lost => Sys2Proof.Machine.execRouteAnnouncement id lost s
  | .jobControlMessage part m => Sys2Proof.Machine.execJobControlMessage part m s
  | .heartbeatSend => Sys2Proof.Machine.execHeartbeatSend s
  | .heartbeatReceived part torus number peer => Sys2Proof.Machine.execHeartbeatReceived part torus number peer s
  | .partnerLost part => Sys2Proof.Machine.execPartnerLost part s
  | .mirrorData part staged m => Sys2Proof.Machine.execMirrorData part staged m s
  | .mirrorAck part kind => Sys2Proof.Machine.execMirrorAck part kind s
  | .coordWrite src coord buddy => Sys2Proof.Machine.execCoordWrite src coord buddy s
  | .growArm src racksNext growAt => Sys2Proof.Machine.execGrowArm src racksNext growAt s
  | .growth => Sys2Proof.Machine.execGrowth s
  | .vfFlr part => Sys2Proof.Machine.execVfFlr part s
  | .flrComplete part => Sys2Proof.Machine.execFlrComplete part s
  | .pfFlr => Sys2Proof.Machine.execPfFlr s
  | .vfEnableClear enable numVfs => Sys2Proof.Machine.execVfEnableClear enable numVfs s
  | .busMasterEnable func value => Sys2Proof.Machine.execBusMasterEnable func value s
  | .msixUnmask func vector => Sys2Proof.Machine.execMsixUnmask func vector s
  | .moderationTimer func vector => Sys2Proof.Machine.execModerationTimer func vector s
  | .create src data => Sys2Proof.Machine.execCreate src data s
  | .destroy src data => Sys2Proof.Machine.execDestroy src data s
  | .partReset src data => Sys2Proof.Machine.execPartReset src data s
  | .partResetDiscard src data => Sys2Proof.Machine.execPartResetDiscard src data s
  | .setShares src data => Sys2Proof.Machine.execSetShares src data s
  | .intakeRelease src part data => Sys2Proof.Machine.execIntakeRelease src part data s
  | .perstNAssert => Sys2Proof.Machine.execPerstNAssert s
  | .perstNDeassert => Sys2Proof.Machine.execPerstNDeassert s
  | .warmDeviceReset => Sys2Proof.Machine.execWarmDeviceReset s
  | .powerOn => Sys2Proof.Machine.execPowerOn s
  | .powerLoss => Sys2Proof.Machine.execPowerLoss s
  | .lockLost domain => Sys2Proof.Machine.execLockLost domain s
  | .bringStep1 src fast work => Sys2Proof.Machine.execBringStep1 src fast work s
  | .bringStep2 src fast work => Sys2Proof.Machine.execBringStep2 src fast work s
  | .bringStep3 src fast work => Sys2Proof.Machine.execBringStep3 src fast work s
  | .bringStep4 src fast work => Sys2Proof.Machine.execBringStep4 src fast work s
  | .bringStep5 src fast work => Sys2Proof.Machine.execBringStep5 src fast work s
  | .bringStep6 src fast work => Sys2Proof.Machine.execBringStep6 src fast work s
  | .bringStep7 src fast work => Sys2Proof.Machine.execBringStep7 src fast work s
  | .bringStep8 src fast work => Sys2Proof.Machine.execBringStep8 src fast work s
  | .bringStep9 src fast work => Sys2Proof.Machine.execBringStep9 src fast work s
  | .bringStep10 src fast work => Sys2Proof.Machine.execBringStep10 src fast work s
  | .bringStep11 src fast work => Sys2Proof.Machine.execBringStep11 src fast work s
  | .bringStep12 src fast work => Sys2Proof.Machine.execBringStep12 src fast work s
  | .bringStep13 src fast work => Sys2Proof.Machine.execBringStep13 src fast work s
  | .bringStep14 src fast work => Sys2Proof.Machine.execBringStep14 src fast work s
  | .bringStep15 src fast work => Sys2Proof.Machine.execBringStep15 src fast work s
  | .bringStepComplete ms => Sys2Proof.Machine.execBringStepComplete ms s
  | .bringStepTimeout ms => Sys2Proof.Machine.execBringStepTimeout ms s
  | .fwupPrepare src part bundle => Sys2Proof.Machine.execFwupPrepare src part bundle s
  | .fwupReady part rounds => Sys2Proof.Machine.execFwupReady part rounds s
  | .fwupSwitch src part => Sys2Proof.Machine.execFwupSwitch src part s
  | .fwupRevert src part => Sys2Proof.Machine.execFwupRevert src part s
  | .fwupAbort src part => Sys2Proof.Machine.execFwupAbort src part s
  | .firmwareBankSwitch part => Sys2Proof.Machine.execFirmwareBankSwitch part s
  | .secReport src nonce => Sys2Proof.Machine.execSecReport src nonce s
  | .secGetCert src => Sys2Proof.Machine.execSecGetCert src s
  | .unlock src token => Sys2Proof.Machine.execUnlock src token s
  | .relock src => Sys2Proof.Machine.execRelock src s
  | .slotWrite src slotB bundle => Sys2Proof.Machine.execSlotWrite src slotB bundle s
  | .slotWriteDone readBack => Sys2Proof.Machine.execSlotWriteDone readBack s
  | .svnCommit src => Sys2Proof.Machine.execSvnCommit src s
  | .returnOrder src => Sys2Proof.Machine.execReturn src s
  | .returnEraseDone failed => Sys2Proof.Machine.execReturnEraseDone failed s
  | .seal src => Sys2Proof.Machine.execSeal src s
  | .mctpGetReport nonce pmask => Sys2Proof.Machine.execMctpGetReport nonce pmask s
  | .mctpGetCert => Sys2Proof.Machine.execMctpGetCert s
  | .mctpUnlock token => Sys2Proof.Machine.execMctpUnlock token s
  | .mctpRelock => Sys2Proof.Machine.execMctpRelock s
  | .reportSnapshot => Sys2Proof.Machine.execReportSnapshot s
  | .reportSigned dmaOk => Sys2Proof.Machine.execReportSigned dmaOk s
  | .unlockExpiry => Sys2Proof.Machine.execUnlockExpiry s
  | .thermalSample readings => Sys2Proof.Machine.execThermalSample readings s
  | .throttleStep hub => Sys2Proof.Machine.execThrottleStep hub s
  | .rateDividerStep hub => Sys2Proof.Machine.execRateDividerStep hub s
  | .powerAverage => Sys2Proof.Machine.execPowerAverage s
  | .leakDetected ext int => Sys2Proof.Machine.execLeakDetected ext int s
  | .flowUpdate => Sys2Proof.Machine.execFlowUpdate s
  | .hbmCeRateCheck stack => Sys2Proof.Machine.execHbmCeRateCheck stack s
  | .refEnWrite src data => Sys2Proof.Machine.execRefEnWrite src data s
  | .refReady => Sys2Proof.Machine.execRefReady s
  | .precisionConversionDone modulator raw => Sys2Proof.Machine.execPrecisionConversionDone modulator raw s
  | .sarSample chan raw => Sys2Proof.Machine.execSarSample chan raw s
  | .groupDue group => Sys2Proof.Machine.execGroupDue group s
  | .calZero src chan => Sys2Proof.Machine.execCalZero src chan s
  | .calFull src chan => Sys2Proof.Machine.execCalFull src chan s
  | .calAbandon src chan => Sys2Proof.Machine.execCalAbandon src chan s
  | .convCalMeasureDone first second => Sys2Proof.Machine.execConvCalMeasureDone first second s
  | .calFullTimeout => Sys2Proof.Machine.execCalFullTimeout s
  | .selfCheck raw temp => Sys2Proof.Machine.execSelfCheck raw temp s
  | .armWrite src page data => Sys2Proof.Machine.execArmWrite src page data s
  | .armExpire src page => Sys2Proof.Machine.execArmExpire src page s
  | .intRawW1c src page data => Sys2Proof.Machine.execIntRawW1c src page data s
  | .intForce src page data => Sys2Proof.Machine.execIntForce src page data s
  | .intEnWrite src page data => Sys2Proof.Machine.execIntEnWrite src page data s
  | .irqEnWrite src page data => Sys2Proof.Machine.execIrqEnWrite src page data s
  | .captClr src page => Sys2Proof.Machine.execCaptClr src page s
  | .loReadLatch src page offset => Sys2Proof.Machine.execLoReadLatch src page offset s
  | .cancelLatRead src => Sys2Proof.Machine.execCancelLatRead src s
  | .powerRead src => Sys2Proof.Machine.execPowerRead src s
  | .convResultRead src chan => Sys2Proof.Machine.execConvResultRead src chan s
  | .registerWrite src page offset size data => Sys2Proof.Machine.execRegisterWrite src page offset size data s
  | .flowPulseEdge => Sys2Proof.Machine.execFlowPulseEdge s
  | .windowWrite src part offset data => Sys2Proof.Machine.execWindowWrite src part offset data s

end Sys2Proof.Machine
end

