-- ==== Sys2Proof/Safety.lean ====
section
/-! DEFINITION. What claims call a safe state and a safe run, in the manual's own terms: memories in their canonical form, a stroke
count inside its period, life-cycle and register fields inside their ranges, and steps that answer a next state. -/

namespace Sys2Proof.Machine

/-- The bytes that the block has written to host memory stand in the canonical form. -/
abbrev State.HostOk (s : State) : Prop := Mem.wf s.hostOut = true

/-- The SRAM of every scribe, the cells of every array and the scratch pool of every partition stand in the canonical form. -/
def State.MemOk (s : State) : Prop :=
  (∀ l, Mem.wf (s.scribe l).sram = true) ∧ (∀ k, Mem.wf (s.array k).cells = true)
    ∧ (∀ p, Mem.wf (s.part p).scratch = true) ∧ s.HostOk

/-- The stroke count lies inside the active period (R77, R83). -/
abbrev State.CountOk (s : State) : Prop := s.stroke.count < s.stroke.periodAct

/-- Every waiting command is well-formed. -/
def State.QueueOk (s : State) : Prop := ∀ c ∈ s.pending, c.wf = true

/-- The life-cycle state is one of R376: MANUFACTURE, SEALED, RETURNED. -/
abbrev State.LifeOk (s : State) : Prop := s.sec.lcState ≤ 2

/-- A step goes on: it answers a next state. -/
def State.Goes (s : State) : Prop := ∃ t, step s = .next t

/-- `n` steps from `s` answer next states throughout, the last of them `t`. -/
def State.Reaches : Nat → State → State → Prop
  | 0, s, t => t = s
  | n + 1, s, t => ∃ u, step s = .next u ∧ State.Reaches n u t

/-! ### Frames -/

/-- From `s` to `t` events alone have occurred (R339, R412): `INT_RAW` bits of pages, messages sent, and messages held as pending. -/
def OnlyEvents (s t : State) : Prop :=
  t = { s with pages := t.pages, msgs := t.msgs, pf := { s.pf with msixPend := t.pf.msixPend }, parts := t.parts }
    ∧ (∀ p, t.part p = { s.part p with msixPend := (t.part p).msixPend })
    ∧ (∀ n, t.page n = { s.page n with intRaw := (t.page n).intRaw })

/-- An event stands in `INT_RAW` of a page. -/
def eventAt (t : State) (page bit : Nat) : Bool := (t.page page).intRaw.getLsbD bit

/-! ### Instructions of a stroke plan -/

/-- The instruction issues: its scribe runs and waits in no barrier, the fetch lies in the role, which holds it there, the loader admits the
word, its guard is 1, no register of it has a write pending, and the inline checks and the comparison with a substitute find nothing (R130,
R140, R145, R146, R153, R255). -/
def issues (c : Opcode) (i : Issue) (s : State) : Bool :=
  (s.scribe i.lcore).mode == .running && !(s.scribe i.lcore).atBar && fetched c i s && decide ((s.scribe i.lcore).pc < (s.scribe i.lcore).nInstr)
    && opOk c i.f && (s.scribe i.lcore).arch.p_ i.lcore i.f.guard.toNat && !scoreboard s i.lcore (opRefs c i.f)
    && i.hw == .ok && i.hwOther == .ok && i.sameDigest == none

/-- The instruction at the pc of scribe `l` has retired, and left its scribe as `x`: pc and loops as the loop-end rule has them
(R183). -/
def retiredAs (s : State) (l : Nat) (x : Scribe) : State :=
  s.setScribe l { x with loops := (loopEnd x.loops x.pc).1, pc := (loopEnd x.loops x.pc).2 }

/-- The instruction has retired, and left the architectural registers as `a`; nothing else of the state has changed. -/
def retired (s : State) (l : Nat) (a : Arch) : State := retiredAs s l { s.scribe l with arch := a }

end Sys2Proof.Machine
end

