-- ==== Sys2Proof/Certificates/Slice0/Obligations.lean ====
section
/-! DEFINITION. What the provers are asked to prove of the block: the rules of the manual, family by family, each as a statement about
`exec`, `step` or an operation, with the next state it gives. -/

open Sys2Proof Sys2Proof.Machine

/-- A job's COMMIT condition (R87): READY for the step it is at, from every device of the block. -/
def allReady (j : Job) : Prop :=
  ∀ k, k < j.block.length → ∃ x ∈ j.statuses, x.stepNo = curStep j ∧ x.position = k ∧ x.ready = true

/-- Only the jobs of partitions have changed, beside what `t` is given. -/
def JobsOnly (s t : State) : Prop :=
  t = { s with parts := t.parts } ∧ ∀ p, t.part p = { s.part p with job := (t.part p).job }

/-- Nothing keeps a job from its next step at a boundary (R79, R82, R93, R134, R135, R343). -/
abbrev nothingHolds (s : State) (p : Nat) (j : Job) : Prop :=
  j.started = true ∧ (multiDevice j = false ∨ j.joined = true) ∧ j.halted = false ∧ j.broken = false ∧ j.unloading = false
    ∧ j.peersDue = false ∧ (s.part p).rst = none
    ∧ j.numHold = false ∧ s.stroke.state ≠ .freeRun ∧ j.freeRunHold = false ∧ j.inserted = none ∧ (s.part p).pstat.busy ≠ 2

/-- The ORDER_DONE entry with a code stands at the end of a partition's queue of completion entries (R223, R225). -/
def answered (s t : State) (p : Nat) (slot gen tag code : Nat) : Prop :=
  ∃ v, (t.part p).cqQueue = (s.part p).cqQueue ++
    [{ tag := BitVec.ofNat 64 tag, slot := slot, gen := gen, kind := 4, code := code, value := v, stroke := s.stroke.number }]

/-- An armed order of `WEIGHT.CMD` has been accepted: the arm is consumed, the register holds the order without GO, and the status names
partition and operation (R297, R418). -/
def weightTaken (s : State) (src : Nat) (d : W32) (op : Nat) : State :=
  let word := (d &&& ~~~(0x1E0#32)) ||| BitVec.ofNat 32 (op * 32)
  { (disarm s src pgWeight).setReg pgWeight 0x04C (word &&& 0x3FFFFFF#32) with
    weight := { s.weight with part := (d.extractLsb' 0 5).toNat, lastOp := op } }

/-- It has ended with a result code and has done nothing else. -/
def weightEnded (s : State) (src : Nat) (d : W32) (op r : Nat) : State :=
  { weightTaken s src d op with weight := { (weightTaken s src d op).weight with result := r } }

/-- An armed order of `PART.CMD` has been accepted: the arm is consumed and the register holds the order without GO (R347, R418). -/
def partTaken (s : State) (src : Nat) (d : W32) (op : Nat) : State :=
  (disarm s src pgPart).setReg pgPart 0x068 (((d &&& ~~~(0xF#32)) ||| BitVec.ofNat 32 op) &&& 0xF#32)

/-- The bring-up step that runs has ended with a code and a detail, its commands' other effects standing in `s` (R348, R349). -/
def bringEnded (s : State) (code detail ms : Nat) (t : State) : Prop :=
  let b := s.bring
  let done := code = 1 ∨ code = 2 ∨ code = 3
  eventAt t pgBring (if done then 0 else 1) = true
    ∧ OnlyEvents { s with bring := { b with
        busy := false, work := none, code := code, detail := detail, elapsed := min ms (2 ^ 24 - 1),
        lastDone := if done then b.step else b.lastDone, doneMap := if done then b.doneMap ||| 2 ^ b.step else b.doneMap } } t

/-- An armed order of `SEC.CMD` has been accepted: the arm is consumed and the register holds the order without GO (R379, R418). -/
def secTaken (s : State) (src op : Nat) (slotB : Bool) : State :=
  (disarm s src pgSec).setReg pgSec 0x050 (BitVec.ofNat 32 (op + (if slotB then 16 else 0)))

/-- `s` with the result and the operation of an order of the security block (R379). -/
def secAnswered (s : State) (op result : Nat) : State := { s with sec := { s.sec with result := result, lastOp := op } }

/-- A region's divider has been brought to the effective one of `t` (R114, R388): a switch that runs goes on; otherwise either the
divider stands already, with its cause, or a switch to it has begun, with every crossing of the region asynchronous. -/
def dividerFollows (s t : State) (r : Nat) : Prop :=
  let x := s.region r
  let y := t.region r
  y.div = x.div
    ∧ (x.divNext ≠ none → y.divNext = x.divNext)
    ∧ (x.divNext = none → x.div = effDiv t r → y.divNext = none ∧ y.src = divCause t r)
    ∧ (x.divNext = none → x.div ≠ effDiv t r → y.divNext = some (effDiv t r, divCause t r)
        ∧ (∀ side, side < 3 → neighbour r side ≠ none → y.side side = true))

/-- A step runs the command at the front of the queue; the idle step is the model's choice (log entry 1). -/
def Obligations.StepRunsFrontCommand : Prop :=
  ∀ (c : Instr) (rest : List Instr) (s : State),
    step { s with pending := c :: rest } = exec c { s with pending := rest }
      ∧ step { s with pending := [] } = .next (tick { s with pending := [] })

/-- NOP, LI, ADDI, MOVSR and SEL retire with exactly their destination register written (spec/08_instructions_engine_and_control.md, spec/06_program_contract.md). -/
def Obligations.ScalarMovesWriteDestination : Prop :=
  (∀ (a : Arch) (l n m : Nat) (x : W64) (w : W2048) (b : Bool),
    a.g_ l 0 = 0#64 ∧ a.p_ l 0 = true
    ∧ (a.setG n x).g_ l m = (if m = n ∧ n ≠ 0 then x else a.g_ l m)
    ∧ (a.setP n b).p_ l m = (if m = n ∧ n ≠ 0 then b else a.p_ l m)
    ∧ (a.setA n x).a_ l m = (if m = n then x else a.a_ l m)
    ∧ (a.setV n w).v_ l m = (if m = n then w else a.v_ l m))
  ∧ ∀ (i : Issue) (s : State),
    let sc := s.scribe i.lcore
    let d := i.f.dest.toNat
    let g (n : Nat) : W64 := sc.arch.g_ i.lcore n
    let a (n : Nat) : W64 := sc.arch.a_ i.lcore n
    (issues .nop i s = true → exec (.nop i) s = .next (retired s i.lcore sc.arch))
    ∧ (issues .li i s = true → exec (.li i) s = .next (retired s i.lcore (sc.arch.setG d
        (if i.f.flags.getLsbD 0 then i.f.imm ++ (g d).extractLsb' 0 32 else i.f.imm.signExtend 64))))
    ∧ (issues .addi i s = true → exec (.addi i) s = .next (retired s i.lcore
        (match (i.f.flags.extractLsb' 0 2).toNat with
         | 0 => sc.arch.setG d (g i.f.src1.toNat + i.f.imm.signExtend 64)
         | 1 => sc.arch.setA d (g i.f.src1.toNat + i.f.imm.signExtend 64)
         | 2 => sc.arch.setA d (a i.f.src1.toNat + i.f.imm.signExtend 64)
         | _ => sc.arch.setG d (a i.f.src1.toNat + i.f.imm.signExtend 64))))
    ∧ (issues .movsr i s = true →
        let x : W32 := sc.special.getD (i.f.imm.extractLsb' 0 3).toNat 0#32
        exec (.movsr i) s = .next (retiredAs s i.lcore
          (noteIn (leBytes 4 x.toNat) { sc with arch := sc.arch.setG d (x.zeroExtend 64) })))
    ∧ (issues .sel i s = true → exec (.sel i) s = .next (retired s i.lcore (sc.arch.setG d
        (if sc.arch.p_ i.lcore (i.f.imm.extractLsb' 0 3).toNat then g i.f.src1.toNat else g i.f.src2.toNat))))

/-- ALU writes g[dest] with the operation of imm[3:0] on g[src1] and g[src2], and faults on none (R190). -/
def Obligations.AluComputesModulo64 : Prop :=
  ∀ (i : Issue) (s : State), issues .alu i s = true →
    let sc := s.scribe i.lcore
    let x : W64 := sc.arch.g_ i.lcore i.f.src1.toNat
    let y : W64 := sc.arch.g_ i.lcore i.f.src2.toNat
    ∃ z : W64, exec (.alu i) s = .next (retired s i.lcore (sc.arch.setG i.f.dest.toNat z))
      ∧ match (i.f.imm.extractLsb' 0 4).toNat with
        | 0 => z.toNat = (x.toNat + y.toNat) % 2 ^ 64
        | 1 => (z.toNat + y.toNat) % 2 ^ 64 = x.toNat
        | 2 => z = x &&& y
        | 3 => z = x ||| y
        | 4 => z = x ^^^ y
        | 5 => z.toNat = x.toNat * 2 ^ (y.toNat % 64) % 2 ^ 64
        | 6 => z.toNat = x.toNat / 2 ^ (y.toNat % 64)
        | 7 => z.toInt = x.toInt / 2 ^ (y.toNat % 64)
        | 8 => z.toNat = x.toNat * y.toNat % 2 ^ 64
        | 9 => z.toInt = x.toInt * y.toInt / 2 ^ 64
        | 10 => z.toInt = min x.toInt y.toInt
        | 11 => z.toInt = max x.toInt y.toInt
        | 12 => z.toNat = min x.toNat y.toNat
        | 13 => z.toNat = max x.toNat y.toNat
        | _ => False

/-- CMP writes p[dest] with the condition of imm[2:0] (R191). -/
def Obligations.ComparesWritePredicate : Prop :=
  ∀ (i : Issue) (s : State),
    let sc := s.scribe i.lcore
    let g (n : Nat) : W64 := sc.arch.g_ i.lcore n
    let x := g i.f.src1.toNat
    let y := if i.f.flags.getLsbD 0 then (i.f.imm.extractLsb' 8 24).signExtend 64 else g i.f.src2.toNat
    (issues .cmp i s = true → ∃ b : Bool, exec (.cmp i) s = .next (retired s i.lcore (sc.arch.setP i.f.dest.toNat b))
      ∧ match (i.f.imm.extractLsb' 0 3).toNat with
        | 0 => (b = true ↔ x = y)
        | 1 => (b = true ↔ x ≠ y)
        | 2 => (b = true ↔ x.toInt < y.toInt)
        | 3 => (b = true ↔ x.toInt ≥ y.toInt)
        | 4 => (b = true ↔ x.toNat < y.toNat)
        | 5 => (b = true ↔ x.toNat ≥ y.toNat)
        | _ => False)
    ∧ (issues .sel i s = true → exec (.sel i) s = .next (retired s i.lcore (sc.arch.setG i.f.dest.toNat
        (if sc.arch.p_ i.lcore (i.f.imm.extractLsb' 0 3).toNat = true then x else g i.f.src2.toNat))))

/-- JMP, BRP and LOOP redirect pc and keep the loop stack as the branch and loop rules have it (spec/08_instructions_engine_and_control.md). -/
def Obligations.BranchesRedirect : Prop :=
  ∀ (i : Issue) (s : State),
    let l := i.lcore
    let sc := s.scribe l
    let imm := (i.f.imm.extractLsb' 0 14).toNat
    let g1 := sc.arch.g_ l i.f.src1.toNat
    let taken (t : Nat) : State := s.setScribe l { sc with
      loops := sc.loops.dropWhile (fun r => !(decide (r.start ≤ t) && decide (t ≤ r.last))), pc := t }
    let target := if i.f.flags.getLsbD 0 then (g1.toNat % 2 ^ 14 + imm) % 2 ^ 14 else imm
    let count := if i.f.flags.getLsbD 0 then g1.toNat % 2 ^ 32 else (i.f.imm.extractLsb' 16 16).toNat
    let body : Prop := sc.pc + imm < sc.nInstr ∧ ∀ r ∈ sc.loops, r.start ≤ sc.pc + 1 ∧ sc.pc + imm ≤ r.last
    (issues .jmp i s = true → target < sc.nInstr → exec (.jmp i) s = .next (taken target))
    ∧ (issues .jmp i s = true → sc.nInstr ≤ target →
        exec (.jmp i) s = .next (progFault s l fEncoding (BitVec.ofNat 64 target) sc.pc))
    ∧ (issues .brp i s = true → imm < sc.nInstr → exec (.brp i) s =
        .next (if (sc.arch.p_ l i.f.src1.toNat ^^ i.f.flags.getLsbD 0) = true then taken imm else retired s l sc.arch))
    ∧ (issues .brp i s = true → sc.nInstr ≤ imm → (sc.arch.p_ l i.f.src1.toNat ^^ i.f.flags.getLsbD 0) = true →
        exec (.brp i) s = .next (progFault s l fEncoding (BitVec.ofNat 64 imm) sc.pc))
    ∧ (issues .loop i s = true → body → count = 0 → exec (.loop i) s = .next (s.setScribe l
        { sc with loops := (loopEnd sc.loops (sc.pc + imm)).1, pc := (loopEnd sc.loops (sc.pc + imm)).2 }))
    ∧ (issues .loop i s = true → body → 0 < count → sc.loops.length < 4 → exec (.loop i) s = .next (s.setScribe l
        { sc with loops := { start := sc.pc + 1, last := sc.pc + imm, left := count } :: sc.loops, pc := sc.pc + 1 }))
    ∧ (issues .loop i s = true → ¬ body ∨ (0 < count ∧ 4 ≤ sc.loops.length) →
        exec (.loop i) s = .next (progFault s l fEncoding 0#64 sc.pc))

/-- AEVAL, ATHR, AREFC and APROOF occupy their free array with the operands latched at cycle 0 (spec/07_instructions_arrays_and_data.md, spec/02_memory_arrays.md). -/
def Obligations.ArrayEvaluationsLatchTheirOperands : Prop :=
  ∀ (i : Issue) (s : State),
    let l := i.lcore
    let sc := s.scribe l
    let n := (i.f.imm.extractLsb' 0 5).toNat
    let k := 32 * (s.remapOf l).pcore + n
    let a := s.array k
    let hdr := sc.arch.g_ l i.f.src2.toNat
    let x := sc.arch.v_ l i.f.src1.toNat
    let t0 := sc.arch.v_ l (i.f.imm.extractLsb' 5 6).toNat
    let t1 := sc.arch.v_ l ((i.f.imm.extractLsb' 5 6).toNat + 1)
    let ps : List Int := (List.range 512).map (fun j =>
      (x.extractLsb' (4 * j) 4).toInt * 2 ^ (3 - (hdr.extractLsb' (8 + 2 * (j / 32)) 2).toNat))
    let th : List Int := (List.range 512).map (fun j =>
      ((if j < 256 then t0 else t1).extractLsb' (8 * (j % 256)) 8).toInt)
    let e (kind : EvalKind) (p th : List Int) (rng : Nat) (seed : W64) : Eval :=
      { kind := kind, lcore := l, index := sc.pc, dest := i.f.dest.toNat, drive := .narrow p, range := rng, gain := a.gain,
        offs := a.offs, trims := a.trims, thresh := th, seed := seed, fair := false, wanted := true }
    let started (v : Eval) (y : Scribe) : State :=
      retiredAs (s.setArray k { a with eval := some v, evCnt := (a.evCnt + 1) % 2 ^ 32 }) l y
    let sent := noteOut (vBytes x ++ leBytes 8 hdr.toNat) sc
    serviceOf s l n = .array → a.eval = none →
      (hdr.getLsbD 63 = false →
        (issues .aeval i s = true → exec (.aeval i) s = .next (started (e .narrow ps [] a.range 0#64) sent))
        ∧ (issues .athr i s = true → exec (.athr i) s = .next (started (e .threshold ps th a.range 0#64) sent))
        ∧ (issues .arefc i s = true → exec (.arefc i) s = .next (started (e .refCodes ps [] a.range 0#64) sent)))
      ∧ (hdr.getLsbD 63 = true →
        (issues .aeval i s = true → exec (.aeval i) s = .next (progFault s l fEncoding 0#64 sc.pc))
        ∧ (issues .athr i s = true → exec (.athr i) s = .next (progFault s l fEncoding 0#64 sc.pc))
        ∧ (issues .arefc i s = true → exec (.arefc i) s = .next (progFault s l fEncoding 0#64 sc.pc)))
      ∧ (issues .aproof i s = true → exec (.aproof i) s = .next (started
          (e .proof (proofDrives (sc.arch.g_ l i.f.src1.toNat)) [] (i.f.imm.extractLsb' 5 4).toNat
            (sc.arch.g_ l i.f.src1.toNat)) sc))

/-- AEVALB is granted by the policy and the broad budget, and writes its predicate (spec/07_instructions_arrays_and_data.md, spec/04_stroke_timing.md). -/
def Obligations.BroadRequestsFollowTheBudget : Prop :=
  ∀ (i : Issue) (s : State) (j : Job),
    let l := i.lcore
    let sc := s.scribe l
    let n := (i.f.imm.extractLsb' 0 5).toNat
    let k := 32 * (s.remapOf l).pcore + n
    let a := s.array k
    let hdr := sc.arch.g_ l i.f.src2.toNat
    let r := (i.f.imm.extractLsb' 5 3).toNat
    let granted : Bool := !j.refuseAll && (!j.partialPol
      || decide (broadUsed sc.grants + 1280 ≤ broadBudget s - broadBudget s * r / 8))
    issues .aevalb i s = true → s.job sc.part = some j → sc.broadReplay = [] →
    serviceOf s l n = .array → a.eval = none → hdr.getLsbD 63 = true → (hdr.extractLsb' 60 3).toNat ≤ 4 →
      ∃ t, exec (.aevalb i) s = .next t
        ∧ (t.scribe l).arch = sc.arch.setP (i.f.imm.extractLsb' 8 3).toNat granted
        ∧ (t.scribe l).broadLog = sc.broadLog ++ [granted] ∧ (t.scribe l).sram = sc.sram
        ∧ (∀ m, m ≠ l → t.scribe m = s.scribe m)
        ∧ (∃ v, t.job sc.part = some v ∧ v.broadReq = j.broadReq + 1
            ∧ v.broadRefused = j.broadRefused + (if granted then 0 else 1) ∧ v.suspects = j.suspects ∧ v.items = j.items)
        ∧ (∀ m, m ≠ k → t.array m = s.array m)
        ∧ (granted = false → t.array k = a)
        ∧ (granted = true → (t.array k).evCnt = (a.evCnt + 2) % 2 ^ 32 ∧ ∃ e, (t.array k).eval = some e ∧ e.kind = .broad
            ∧ e.dest = i.f.dest.toNat ∧ e.range = a.range
            ∧ ∀ q < 512,
              let m := (((if q < 256 then sc.arch.v_ l i.f.src1.toNat
                  else sc.arch.v_ l (i.f.src1.toNat + 1))).extractLsb' (8 * (q % 256)) 8).toInt
              let d := (hdr.extractLsb' (8 + 2 * (q / 32)) 2).toNat
              let lo := (m + 8) % 16 - 8
              e.drive.hi.getD q 0 = (m - lo) / 16 * 2 ^ (3 - d) ∧ e.drive.lo.getD q 0 = lo * 2 ^ (3 - d))

/-- ARRAY_DELIVERY frees the array, and delivers codes in the band of the array's state (spec/02_memory_arrays.md, spec/07_instructions_arrays_and_data.md). -/
def Obligations.ArrayDeliveryFreesAndDelivers : Prop :=
  ∀ (k : Nat) (hi lo : Reading) (s : State),
    let a := s.array k
    (a.eval = none → exec (.arrayDelivery k hi lo) s = .next s)
    ∧ ∀ e, a.eval = some e →
      (e.wanted = false → ∃ t, exec (.arrayDelivery k hi lo) s = .next t ∧ (t.array k).eval = none ∧ t.scribes = s.scribes
        ∧ (t.array k).log = a.log ∧ (t.array k).cells = a.cells ∧ t.parts = s.parts
        ∧ (e.fair = true → t = s.setArray k { a with eval := none }))
      ∧ (e.wanted = true → e.fair = false → replayed s (s.scribe e.lcore).part k = false →
        (∀ ps, e.kind = .narrow → e.drive = .narrow ps →
          ∃ t, exec (.arrayDelivery k hi lo) s = .next t ∧ (t.array k).eval = none
            ∧ ∃ cs : List Int, cs.length = 512
              ∧ (t.scribe e.lcore).arch = (s.scribe e.lcore).arch.setVs e.dest (packPair cs)
              ∧ ∀ j < 512, -128 ≤ cs.getD j 0 ∧ cs.getD j 0 ≤ 127
                ∧ ∀ w, serviceBand s k hi = some w → |cs.getD j 0 - idealCode (arrayD s k ps j) e.range| ≤ w)
        ∧ (∀ ps, e.kind = .threshold → e.drive = .narrow ps →
          ∃ t, exec (.arrayDelivery k hi lo) s = .next t ∧ t.array k = { a with eval := none }
            ∧ ∃ bs : List Nat, bs.length = 512
              ∧ (t.scribe e.lcore).arch = (s.scribe e.lcore).arch.setV e.dest (packV 1 bs)
              ∧ ∀ j < 512, bs.getD j 0 ≤ 1 ∧ ∀ w, serviceBand s k hi = some w →
                (w : Int) * 2 ^ e.range < |arrayD s k ps j - e.thresh.getD j 0 * 2 ^ e.range| →
                  (bs.getD j 0 = 1 ↔ e.thresh.getD j 0 * 2 ^ e.range ≤ arrayD s k ps j)))

/-- ARANGE writes the range shift of the named arrays; ACHK and the check logs; TRACKING_WINDOW_END (spec/07_instructions_arrays_and_data.md, spec/02_memory_arrays.md). -/
def Obligations.RangeAndLogInstructions : Prop :=
  (∀ (i : Issue) (s : State), issues .arange i s = true →
    let sc := s.scribe i.lcore
    let mask := (sc.arch.g_ i.lcore i.f.src1.toNat).toNat
    ∃ t, exec (.arange i) s = .next t ∧ t.scribe i.lcore = (retired s i.lcore sc.arch).scribe i.lcore
      ∧ (∀ m, m ≠ i.lcore → t.scribe m = s.scribe m) ∧ t.parts = s.parts ∧ t.pcores = s.pcores
      ∧ (∀ n < 32, t.array (arrayKey s i.lcore n) = if mask.testBit n
          then { s.array (arrayKey s i.lcore n) with range := (i.f.imm.extractLsb' 0 4).toNat, sums := TrackSums.zero }
          else s.array (arrayKey s i.lcore n))
      ∧ (∀ k, (∀ n < 32, k ≠ arrayKey s i.lcore n) → t.array k = s.array k))
  ∧ (∀ (i : Issue) (s : State), issues .achk i s = true → (s.remapOf i.lcore).mode = .arrays →
    let l := i.lcore
    let sc := s.scribe l
    let mask := i.f.imm.toNat
    let log (n : Nat) := (s.array (arrayKey s l n)).log
    (∀ n < 32, mask.testBit n = true → (s.array (arrayKey s l n)).eval = none) →
    ∃ t g, exec (.achk i) s = .next t ∧ (t.scribe l).arch = sc.arch.setG i.f.dest.toNat g
      ∧ (∀ n < 32, g.getLsbD n = (mask.testBit n && ((log n).fail || (log n).win))
          ∧ g.getLsbD (32 + n) = (mask.testBit n && (log n).unchk)
          ∧ t.array (arrayKey s l n) = if mask.testBit n
              then { s.array (arrayKey s l n) with log := CheckLog.clear } else s.array (arrayKey s l n))
      ∧ (∀ k, (∀ n < 32, k ≠ arrayKey s l n) → t.array k = s.array k))
  ∧ (∀ (k : Nat) (s : State),
    let a := s.array k
    (a.sums.evals < trackWin s (k / 32) ∨ trackEn s (k / 32) = false ∨ a.trackHold = true →
        exec (.trackingWindowEnd k) s = .next s)
    ∧ (trackWin s (k / 32) ≤ a.sums.evals → trackEn s (k / 32) = true → a.trackHold = false →
        windowAccepted (pairSums a.sums.pairs) a.range = false →
        exec (.trackingWindowEnd k) s = .next (s.setArray k { a with sums := TrackSums.zero }))
    ∧ (trackWin s (k / 32) ≤ a.sums.evals → trackEn s (k / 32) = true → a.trackHold = false →
        windowAccepted (pairSums a.sums.pairs) a.range = true →
        ∃ t, exec (.trackingWindowEnd k) s = .next t ∧ (t.array k).trackValid = true ∧ (t.array k).sums = TrackSums.zero
          ∧ 16384 ≤ (t.array k).gain ∧ (t.array k).gain ≤ 65535 ∧ -512 ≤ (t.array k).offs ∧ (t.array k).offs ≤ 512
          ∧ (t.array k).log = a.log ∧ (t.array k).range = a.range ∧ t.scribes = s.scribes))

/-- QB4 and QB8 write a slice of 512 mantissas in range, its header and the broad request (spec/07_instructions_arrays_and_data.md, spec/03_number_formats.md). -/
def Obligations.QuantisersWriteSliceAndHeader : Prop :=
  ∀ (i : Issue) (s : State),
    let l := i.lcore
    let sc := s.scribe l
    let bf16 := i.f.flags.getLsbD 0
    let xs := sourceElems bf16 (rdVs i sc i.f.src1.toNat (if bf16 then 4 else 8))
    let h := sc.arch.g_ l i.f.src2.toNat
    let stat : Option Int := if i.f.flags.getLsbD 1 then none
      else if i.f.flags.getLsbD 2 then some ((sc.arch.g_ l (i.f.imm.extractLsb' 16 5).toNat).extractLsb' 0 8).toInt
      else some (i.f.imm.extractLsb' 8 8).toInt
    (issues .qb4 i s = true → ∃ (ms : List Int) (hdr : W64), qb4 xs stat (h.extractLsb' 0 32) = (ms, hdr)
      ∧ ms.length = 512 ∧ (∀ m ∈ ms, -7 ≤ m ∧ m ≤ 7) ∧ hdr.getLsbD 63 = false
      ∧ exec (.qb4 i) s = .next (retired s l (((sc.arch.setV i.f.dest.toNat (packV 4 (ms.map (fun m => (m % 16).toNat)))).setG
          (i.f.imm.extractLsb' 0 5).toNat hdr).setP (i.f.imm.extractLsb' 5 3).toNat (hdr.getLsbD 60))))
    ∧ (issues .qb8 i s = true → h.getLsbD 63 = false → ∃ (ms : List Int) (hdr : W64), qb8 xs (h.extractLsb' 0 8).toInt = (ms, hdr)
      ∧ ms.length = 512 ∧ (∀ m ∈ ms, -127 ≤ m ∧ m ≤ 127) ∧ hdr.getLsbD 63 = true
      ∧ exec (.qb8 i) s = .next (retired s l (((sc.arch.setV i.f.dest.toNat (packV 8 ((ms.take 256).map byteOf))).setV
          (i.f.dest.toNat + 1) (packV 8 ((ms.drop 256).map byteOf))).setG (i.f.imm.extractLsb' 0 5).toNat hdr)))
    ∧ (issues .qb8 i s = true → h.getLsbD 63 = true → exec (.qb8 i) s = .next (progFault s l fEncoding 0#64 sc.pc))

/-- DQC aligns and scales codes lane by lane; CVT writes the registers of its conversion (spec/07_instructions_arrays_and_data.md, spec/03_number_formats.md). -/
def Obligations.PartialsAndConversions : Prop :=
  ∀ (i : Issue) (s : State),
    let l := i.lcore
    let sc := s.scribe l
    let v (n : Nat) : W2048 := sc.arch.v_ l n
    let x := i.f.src1.toNat
    let q := (i.f.imm.extractLsb' 0 3).toNat
    let mode := (i.f.flags.extractLsb' 0 2).toNat
    let code (n j : Nat) : Int := ((if j < 256 then v n else v (n + 1)).extractLsb' (8 * (j % 256)) 8).toInt
    let h := sc.arch.g_ l (i.f.imm.extractLsb' 3 5).toNat
    let hs := sc.arch.g_ l (i.f.imm.extractLsb' 0 5).toNat
    (issues .dqc i s = true → mode = 0 → ∃ w : W2048,
      exec (.dqcAlignN i) s = .next (retired s l (sc.arch.setV i.f.dest.toNat w))
      ∧ ∀ j < 64, (w.extractLsb' (32 * j) 32).toInt = 16 * code x (64 * q + j))
    ∧ (issues .dqc i s = true → mode = 1 → h.getLsbD 63 = true → (h.extractLsb' 60 3).toNat ≤ 4 → ∃ w : W2048,
      exec (.dqcAlignB i) s = .next (retired s l (sc.arch.setV i.f.dest.toNat w))
      ∧ ∀ j < 64, (w.extractLsb' (32 * j) 32).toInt
          = (16 * code x (64 * q + j) + code (x + 2) (64 * q + j)) * 2 ^ (h.extractLsb' 60 3).toNat)
    ∧ (issues .dqc i s = true → mode = 1 → h.getLsbD 63 = false ∨ 4 < (h.extractLsb' 60 3).toNat →
      exec (.dqcAlignB i) s = .next (progFault s l fEncoding 0#64 sc.pc))
    ∧ (issues .dqc i s = true → mode = 2 → hs.getLsbD 63 = false ∨ (hs.extractLsb' 60 3).toNat ≤ 4 → ∃ w : W2048,
      exec (.dqcScale i) s = .next (retired s l (sc.arch.setV i.f.dest.toNat w))
      ∧ ∀ j < 64, w.extractLsb' (32 * j) 32 = scaleF32 ((v x).extractLsb' (32 * j) 32).toInt
          ((v i.f.src2.toNat).extractLsb' (32 * j) 32)
          ((hs.extractLsb' 0 8).toInt - 7 + (i.f.imm.extractLsb' 5 4).toNat))
    ∧ (issues .cvt i s = true → exec (.cvt i) s = .next (retired s l (sc.arch.setVs i.f.dest.toNat
        (convert (i.f.imm.extractLsb' 0 4).toNat (rdVs i sc x (convertSrc (i.f.imm.extractLsb' 0 4).toNat))))))

/-- LDV and STV move 256 bytes between a vector register and SRAM, and keep every other byte (spec/07_instructions_arrays_and_data.md, spec/06_program_contract.md). -/
def Obligations.VectorRegistersMoveThroughSram : Prop :=
  ∀ (i : Issue) (s : State),
    let l := i.lcore
    let sc := s.scribe l
    let b := sc.arch.a_ l i.f.src1.toNat
    let moved := b + i.f.imm.signExtend 64
    let ea := if i.f.flags.getLsbD 0 then b else moved
    let lo := (ea.extractLsb' 0 60).toNat
    let ends (a : Arch) : Arch := if i.f.flags.getLsbD 0 then a.setA i.f.src1.toNat moved else a
    Mem.wf sc.sram = true →
    ((ea.extractLsb' 60 4).toNat = 0 → lo % 64 = 0 → lo + 256 ≤ 0x180000 →
      (issues .ldv i s = true → sramReadWaits sc lo 256 = false → ∃ w : W2048,
        exec (.ldv i) s = .next (retired s l (ends (sc.arch.setV i.f.dest.toNat w)))
        ∧ ∀ j < 256, w.extractLsb' (8 * j) 8 = Mem.read sc.sram (lo + j))
      ∧ (issues .stv i s = true → sramWriteWaits sc lo 256 = false → ∃ m : Mem,
        exec (.stv i) s = .next (retiredAs s l { sc with sram := m, arch := ends sc.arch }) ∧ Mem.wf m = true
        ∧ (∀ j < 256, Mem.read m (lo + j) = (sc.arch.v_ l i.f.src2.toNat).extractLsb' (8 * j) 8)
        ∧ ∀ a, a < lo ∨ lo + 256 ≤ a → Mem.read m a = Mem.read sc.sram a))
    ∧ ((ea.extractLsb' 60 4).toNat = 0 → lo % 64 = 0 → 0x180000 < lo + 256 →
      (issues .ldv i s = true → exec (.ldv i) s = .next (progFault s l fSram ea sc.pc))
      ∧ (issues .stv i s = true → exec (.stv i) s = .next (progFault s l fSram ea sc.pc)))

/-- MMA8, MMA4 and MMAH accumulate every element of the destination tile (spec/08_instructions_engine_and_control.md). -/
def Obligations.MatrixTilesAccumulate : Prop :=
  ∀ (i : Issue) (s : State),
    let l := i.lcore
    let sc := s.scribe l
    let d := i.f.dest.toNat
    let a := sc.arch.v_ l i.f.src1.toNat
    let b := sc.arch.v_ l i.f.src2.toNat
    let acc (r c : Nat) : W32 := if i.f.flags.getLsbD 0 then 0#32 else (sc.arch.t_ l d r).extractLsb' (32 * c) 32
    let done (o : Host.Outcome State Fault Refusal) (f : Nat → Nat → W32) : Prop := ∃ x : Arch,
      o = .next (retired s l x) ∧ x.g = sc.arch.g ∧ x.a = sc.arch.a ∧ x.v = sc.arch.v ∧ x.p = sc.arch.p
        ∧ (∀ r < 64, ∀ c < 64, (x.t_ l d r).extractLsb' (32 * c) 32 = f r c)
        ∧ (∀ n r, n ≠ d → r < 64 → x.t_ l n r = sc.arch.t_ l n r)
    (issues .mma8 i s = true → done (exec (.mma8 i) s) (fun r c => BitVec.ofInt 32 ((acc r c).toInt
      + ((List.range 4).map (fun k =>
          (a.extractLsb' (8 * (4 * r + k)) 8).toInt * (b.extractLsb' (8 * (64 * k + c)) 8).toInt)).sum)))
    ∧ (issues .mma4 i s = true → done (exec (.mma4 i) s) (fun r c => BitVec.ofInt 32 ((acc r c).toInt
      + ((List.range 8).map (fun k =>
          (a.extractLsb' (4 * (8 * r + k)) 4).toInt * (b.extractLsb' (4 * (64 * k + c)) 4).toInt)).sum)))
    ∧ (issues .mmah i s = true → done (exec (.mmah i) s) (fun r c =>
        let h (v : W2048) (n : Nat) : W32 := bf16To32 (v.extractLsb' (16 * n) 16)
        fFma (h a (2 * r + 1)) (h b (64 + c)) (fFma (h a (2 * r)) (h b c) (acc r c))))

/-- VFMA, VALU, VRED, VEXP and VRSQ write their destination lane by lane (spec/08_instructions_engine_and_control.md, spec/03_number_formats.md). -/
def Obligations.VectorUnitWorksLaneByLane : Prop :=
  ∀ (i : Issue) (s : State),
    let l := i.lcore
    let sc := s.scribe l
    let d := i.f.dest.toNat
    let lane (n j : Nat) : W32 := (sc.arch.v_ l n).extractLsb' (32 * j) 32
    let x (j : Nat) : W32 := lane i.f.src1.toNat j
    let y (j : Nat) : W32 := lane i.f.src2.toNat j
    let op := (i.f.imm.extractLsb' 0 6).toNat
    let k := (i.f.imm.extractLsb' 6 6).toNat
    let writes (o : Host.Outcome State Fault Refusal) (f : Nat → W32) : Prop := ∃ w : W2048,
      o = .next (retired s l (sc.arch.setV d w)) ∧ ∀ j < 64, w.extractLsb' (32 * j) 32 = f j
    (issues .vfma i s = true → writes (exec (.vfma i) s) (fun j => fFma (x j) (y j) (lane d j)))
    ∧ (issues .valu i s = true →
        (op = 0 → writes (exec (.valu i) s) (fun j => fAdd (x j) (y j)))
        ∧ (op = 1 → writes (exec (.valu i) s) (fun j => fSub (x j) (y j)))
        ∧ (op = 2 → writes (exec (.valu i) s) (fun j => fMul (x j) (y j)))
        ∧ (op = 9 → writes (exec (.valu i) s) (fun j => x j + y j))
        ∧ (op = 10 → writes (exec (.valu i) s) (fun j => x j - y j))
        ∧ (op = 11 → writes (exec (.valu i) s) (fun j => x j * y j))
        ∧ (op = 14 → writes (exec (.valu i) s) (fun j => x j &&& y j))
        ∧ (op = 17 → writes (exec (.valu i) s) (fun j => x j <<< ((y j).toNat % 32)))
        ∧ (op = 18 → writes (exec (.valu i) s) (fun j => x j >>> ((y j).toNat % 32)))
        ∧ (op < 21 → writes (exec (.valu i) s) (fun j => valuLane op (x j) (y j)))
        ∧ (op = 21 → writes (exec (.valu i) s) (fun _ => x k))
        ∧ (op = 22 → writes (exec (.valu i) s) (fun _ => (sc.arch.g_ l i.f.src2.toNat).extractLsb' 0 32))
        ∧ (op = 23 → exec (.valu i) s = .next (retired s l (sc.arch.setV d (sc.arch.t_ l i.f.src1.toNat k)))))
    ∧ (issues .vred i s = true →
        ((i.f.imm.extractLsb' 0 3).toNat = 4 →
          exec (.vred i) s = .next (retired s l (sc.arch.setP d (sc.arch.v_ l i.f.src1.toNat != 0#2048))))
        ∧ ((i.f.imm.extractLsb' 0 3).toNat = 0 → writes (exec (.vred i) s) (fun _ => fsum (sc.arch.v_ l i.f.src1.toNat)))
        ∧ ((i.f.imm.extractLsb' 0 3).toNat = 3 →
          writes (exec (.vred i) s) (fun _ => ((List.range 64).map x).foldl (· + ·) 0#32)))
    ∧ (issues .vexp i s = true → writes (exec (.vexp i) s)
        (fun j => if i.f.flags.getLsbD 0 then fExpE (x j) else fExp2 (x j)))
    ∧ (issues .vrsq i s = true → writes (exec (.vrsq i) s) (fun j => fRsqrt (x j)))

/-- TOPK, SAMP, DGST and FCPY write exactly their results (spec/08_instructions_engine_and_control.md). -/
def Obligations.SelectionAndDigest : Prop :=
  ∀ (i : Issue) (s : State),
    let l := i.lcore
    let sc := s.scribe l
    let d := i.f.dest.toNat
    let v (n : Nat) : W2048 := sc.arch.v_ l n
    let g (n : Nat) : W64 := sc.arch.g_ l n
    let pairOf (n : Nat) : List Entry := entriesOf (v n) (v (n + 1))
    let best := topk (i.f.imm.extractLsb' 0 7).toNat (i.f.flags.getLsbD 0) (pairOf d) (pairOf i.f.src1.toNat)
      (fun j => (v i.f.src2.toNat).getLsbD (64 * (i.f.imm.extractLsb' 7 3).toNat + j))
    let par := g (i.f.src2.toNat + 2)
    let drawn := samp (i.f.flags.getLsbD 0) ((pairOf i.f.src1.toNat).take (i.f.imm.extractLsb' 0 7).toNat) (g i.f.src2.toNat)
      ((g (i.f.src2.toNat + 1)).extractLsb' 0 32) (par.extractLsb' 0 32) (par.extractLsb' 32 32)
    let digest := crcBytes 64 0x42F0E1EBA9EA3693#64 sc.digest
      ((List.range 256).map (fun j => (v i.f.src1.toNat).extractLsb' (8 * j) 8))
    let base := sc.arch.a_ l (i.f.imm.extractLsb' 0 4).toNat
    let lo := (base.extractLsb' 0 60).toNat
    (issues .topk i s = true →
      exec (.topk i) s = .next (retired s l ((sc.arch.setV d best.1).setV (d + 1) best.2)))
    ∧ (issues .samp i s = true → ∀ r, drawn = some r → exec (.samp i) s = .next (retired s l (sc.arch.setG d r)))
    ∧ (issues .samp i s = true → drawn = none → exec (.samp i) s = .next (progFault s l fEncoding 0#64 sc.pc))
    ∧ (issues .dgst i s = true →
      exec (.dgst i) s = .next (retiredAs s l { sc with digest := digest, arch := sc.arch.setG d digest }))
    ∧ (issues .fcpy i s = true → (g i.f.src2.toNat).getLsbD 63 = false → (base.extractLsb' 60 4).toNat = 0 → lo % 64 = 0 →
        lo + 131072 ≤ 0x180000 → sramReadWaits sc lo 131072 = false → ∃ w : W2048,
      exec (.fcpy i) s = .next (retired s l (sc.arch.setV d w))
      ∧ ∀ j < 64, w.extractLsb' (32 * j) 32 = BitVec.ofInt 32 (16 * colSum (fun n => Mem.read sc.sram (lo + n))
          (drives (g i.f.src2.toNat) (slice4 (v i.f.src1.toNat))) (64 * (i.f.imm.extractLsb' 4 3).toNat + j)))

/-- DMAR, MIMG and DMAW move their bytes, open a transaction and keep every other byte (spec/07_instructions_arrays_and_data.md, spec/06_program_contract.md). -/
def Obligations.TransfersMoveTheirBytes : Prop :=
  ∀ (i : Issue) (s : State) (j : Job),
    let l := i.lcore
    let sc := s.scribe l
    let x := s.part sc.part
    let a := sc.arch.a_ l i.f.src1.toNat
    let h := sc.arch.a_ l i.f.src2.toNat
    let n := (i.f.imm.extractLsb' 0 21).toNat
    let lo := (a.extractLsb' 0 60).toNat
    let off := (h.extractLsb' 0 48).toNat
    let sp := (h.extractLsb' 60 4).toNat
    let retiresWith (t : State) (m : Mem) (write : Bool) (note : Scribe → Scribe) : Prop :=
      t.scribe l = { note (addTx { sc with sram := m } .memory write lo n) with
        loops := (loopEnd sc.loops sc.pc).1, pc := (loopEnd sc.loops sc.pc).2 }
      ∧ (∀ q, q ≠ l → t.scribe q = s.scribe q) ∧ t.arrays = s.arrays ∧ t.slots = s.slots ∧ t.regs = s.regs
    let filled (m old : Mem) (at_ : Nat) (byte : Nat → Byte) : Prop :=
      (∀ b < n, Mem.read m (at_ + b) = byte b) ∧ ∀ b, b < at_ ∨ at_ + n ≤ b → Mem.read m b = Mem.read old b
    s.job sc.part = some j → Mem.wf sc.sram = true → Mem.wf x.scratch = true → txWaits s sc = false →
    (a.extractLsb' 60 4).toNat = 0 → lo % 64 = 0 → lo + n ≤ 0x180000 →
    h.toNat % 64 = 0 → h.extractLsb' 48 12 = 0#12 →
      (issues .dmar i s = true → sp = 1 → off + n ≤ (scratchSpace x).2 → sramWriteWaits sc lo n = false →
        orderClash j sc.pindex off n false = false → ∃ t m, exec (.dmar i) s = .next t
          ∧ retiresWith t m true (noteIn (Mem.readBytes x.scratch off n))
          ∧ filled m sc.sram lo (fun b => Mem.read x.scratch (off + b)) ∧ (t.part sc.part).scratch = x.scratch)
      ∧ (issues .mimg i s = true → sp = 3 → off + n ≤ (imageSpace x).2 → sramWriteWaits sc lo n = false →
        ∀ im, x.curImage = some im → ∃ t m, exec (.mimg i) s = .next t
          ∧ retiresWith t m true (noteIn (Mem.readBytes im.bytes off n))
          ∧ filled m sc.sram lo (fun b => Mem.read im.bytes (off + b)) ∧ t.parts = s.parts)
      ∧ (issues .dmaw i s = true → sp = 1 → off + n ≤ (scratchSpace x).2 → sramReadWaits sc lo n = false →
        orderClash j sc.pindex off n true = false → ∃ t, exec (.dmaw i) s = .next t
          ∧ retiresWith t sc.sram false (noteOut (Mem.readBytes sc.sram lo n))
          ∧ filled (t.part sc.part).scratch x.scratch off (fun b => Mem.read sc.sram (lo + b)))
      ∧ (issues .dmar i s = true → sp = 1 → (scratchSpace x).2 < off + n →
        exec (.dmar i) s = .next (progFault s l fHbm h sc.pc))

/-- KVAP stages bytes of one position on the blotter; KVGT reads the staged entry, else the committed one, else 0 (spec/07_instructions_arrays_and_data.md, spec/01_token_path.md). -/
def Obligations.KvPagesStageAndRead : Prop :=
  ∀ (i : Issue) (s : State) (j : Job),
    let l := i.lcore
    let sc := s.scribe l
    let x := s.part sc.part
    let a := sc.arch.a_ l i.f.src1.toNat
    let k := sc.arch.a_ l i.f.src2.toNat
    let lo := (a.extractLsb' 0 60).toNat
    let pg := (k.extractLsb' 18 30).toNat
    let byte := (k.extractLsb' 0 18).toNat
    let n := 64 * (i.f.imm.extractLsb' 5 7).toNat
    let m := (i.f.imm.extractLsb' 0 19).toNat
    let slot := (sc.arch.g_ l (i.f.imm.extractLsb' 0 5).toNat).toNat % 65536
    let item : Item := .kv slot pg (byte / 4096) (byte % 4096) (Mem.readBytes sc.sram lo n) (i.f.flags.getLsbD 0)
    let next (z : Scribe) : Scribe := { z with loops := (loopEnd sc.loops sc.pc).1, pc := (loopEnd sc.loops sc.pc).2 }
    s.job sc.part = some j → j.replaying = false → Mem.wf sc.sram = true → txWaits s sc = false →
    (a.extractLsb' 60 4).toNat = 0 → lo % 64 = 0 → (k.extractLsb' 60 4).toNat = 2 → ownPage x pg = true → byte % 64 = 0 →
      (∀ g, issues .kvap i s = true → Tbl.get? x.pages pg = some g → (∀ h, g.owner ≠ .sealed h) → lo + n ≤ 0x180000 →
        byte % 4096 + n ≤ 4096 → sramReadWaits sc lo n = false →
        (g.posOf (byte / 4096) ≠ .committed → ∃ t, exec (.kvap i) s = .next t
          ∧ t.job sc.part = some { j with items := j.items ++ [item] }
          ∧ (t.part sc.part).pages = x.pages ∧ t.scribe l = next (noteItem s item (addTx sc .memory false lo n))
          ∧ ∀ q, q ≠ l → t.scribe q = s.scribe q)
        ∧ (g.posOf (byte / 4096) = .committed → exec (.kvap i) s = .next (progFault s l fEncoding k sc.pc)))
      ∧ (issues .kvgt i s = true → lo + m ≤ 0x180000 → byte + m ≤ 2 ^ 18 → sramWriteWaits sc lo m = false →
        ∃ t r, exec (.kvgt i) s = .next t ∧ t = s.setScribe l (next (noteIn (Mem.readBytes r lo m) (addTx { sc with sram := r } .memory true lo m)))
          ∧ (∀ b < m, Mem.read r (lo + b) = Mem.read (kvRead x j pg ((byte + b) / 4096)) ((byte + b) % 4096))
          ∧ ∀ b, b < lo ∨ lo + m ≤ b → Mem.read r b = Mem.read sc.sram b)

/-- TRANSACTION_DONE closes one transaction of a core, and FENCE waits for those it names (spec/06_program_contract.md, spec/08_instructions_engine_and_control.md). -/
def Obligations.TransactionsClose : Prop :=
  (∀ (l id : Nat) (s : State),
    let sc := s.scribe l
    let rest := s.setScribe l { sc with txs := sc.txs.filter (fun x => x.id != id) }
    (sc.sends.any (fun x => x.id == id) = true → exec (.transactionDone l id) s = .next s)
    ∧ (sc.sends.any (fun x => x.id == id) = false → dataOwed s sc.part sc.pindex id = false →
        exec (.transactionDone l id) s = .next (tryBar rest sc.part)
        ∧ ((∃ pl, (s.part sc.part).plan = some pl ∧ ∃ c ∈ barCores rest pl, (s.scribe c).atBar = false) →
            exec (.transactionDone l id) s = .next rest)))
  ∧ (∀ (i : Issue) (s : State), issues .fence i s = true →
    let sc := s.scribe i.lcore
    let open_ := (i.f.imm.getLsbD 0 && sc.txs.any (fun x => x.kind != .mesh))
      || (i.f.imm.getLsbD 1 && (sc.txs.any (fun x => x.kind == .mesh) || !sc.recvs.isEmpty))
    exec (.fence i) s = .next (if open_ then s else retired s i.lcore sc.arch))

/-- SEND, MCAST and RECV post; requests match posted receives; answers release the data; arrival writes the buffer (spec/07_instructions_arrays_and_data.md). -/
def Obligations.RendezvousDeliversOnlyIntoPostedBuffers : Prop :=
  (∀ (i : Issue) (s : State),
    let l := i.lcore
    let sc := s.scribe l
    let a := sc.arch.a_ l i.f.src1.toNat
    let d := sc.arch.g_ l i.f.src2.toNat
    let lo := (a.extractLsb' 0 60).toNat
    let n := (d.extractLsb' 40 24).toNat
    let tag := (i.f.imm.extractLsb' 0 16).toNat
    let peer := (d.extractLsb' 0 10).toNat
    let last := (d.extractLsb' 16 10).toNat
    let q (ds : List Nat) : SendReq :=
      { id := newTxId sc, tag := tag, dests := ds, all := ds, device := none, lo := lo, len := n, index := sc.pc }
    (a.extractLsb' 60 4).toNat = 0 → lo % 64 = 0 → 0 < n → n % 64 = 0 → lo + n ≤ 0x180000 → d.getLsbD 32 = false →
      (issues .send i s = true → txWaits s sc = false → sramReadWaits sc lo n = false → peer < planNcore s sc.part →
        peer ≠ sc.pindex →
        exec (.send i) s = .next (retiredAs s l (noteOut (Mem.readBytes sc.sram lo n)
          { addTx sc .mesh false lo n with sends := sc.sends ++ [q [peer]] })))
      ∧ (issues .mcast i s = true → txWaits s sc = false → sramReadWaits sc lo n = false → last < planNcore s sc.part →
        peer < sc.pindex → sc.pindex ≤ last →
        exec (.mcast i) s = .next (retiredAs s l (noteOut (Mem.readBytes sc.sram lo n) { addTx sc .mesh false lo n with sends :=
          sc.sends ++ [q (((List.range (last + 1 - peer)).map (· + peer)).filter (fun k => k != sc.pindex))] })))
      ∧ (issues .recv i s = true → sramWriteWaits sc lo n = false → peer < planNcore s sc.part → sc.arrived = [] →
        exec (.recv i) s = .next (retiredAs s l { sc with recvs := sc.recvs ++
          [{ id := newTxId sc, tag := tag, peer := peer, device := none, lo := lo, len := n, matched := false, sendId := 0,
             data := none, index := sc.pc }] })))
  ∧ (∀ (l : Nat) (r : RendezvousReq) (s : State) (j : Job),
    let sc := s.scribe l
    let c := runCore s l
    s.job sc.part = some j → j.hold = none →
      (r.stepNo ≠ j.stepNo → exec (.rendezvousRequest l r) s =
        .next (s.setPcore c { s.pcore c with discard := sat 16 ((s.pcore c).discard + 1) }))
      ∧ (r.stepNo = j.stepNo → sc.mode ≠ .stopped → sentBy s sc.part r sc.pindex = true → sc.arrived = [] → sc.recvs = [] →
        exec (.rendezvousRequest l r) s = .next (s.setScribe l { sc with arrived :=
          [{ tag := r.tag, peer := r.peer, device := r.device, len := r.len, sendId := r.id }] })))
  ∧ (∀ (l id peer m : Nat) (s : State) (q : SendReq) (r : RecvPost),
    let sc := s.scribe l
    sc.mode ≠ .stopped → sc.sends = [q] → q.id = id → q.device = none → q.dests = [peer] → q.all = [peer] → lcoreOf s sc.part peer = some m → m ≠ l →
    (s.scribe m).recvs = [r] → r.matched = true → r.sendId = id → r.peer = sc.pindex → r.device = none →
      exec (.rendezvousAnswer l id peer) s = .next ((s.setScribe l { sc with sends := [] }).setScribe m
        { s.scribe m with recvs := [{ r with data := some (Mem.readBytes sc.sram q.lo q.len) }] }))
  ∧ (∀ (l id : Nat) (data bs : List Byte) (s : State) (r : RecvPost),
    let sc := s.scribe l
    sc.mode ≠ .stopped → sc.recvs.find? (fun x => x.id == id) = some r →
      (r.matched = false → exec (.recvDataArrival l id data) s = .next s)
      ∧ (r.matched = true → r.device = none → r.data = some bs → exec (.recvDataArrival l id data) s =
        .next (s.setScribe l (noteIn bs { sc with
          sram := Mem.writeBytes sc.sram r.lo bs, recvs := sc.recvs.filter (fun x => x.id != id) }))))

/-- LIG contributions leave as four flits of 16 lanes with their counts and checksums (spec/07_instructions_arrays_and_data.md, spec/05_cores_and_mesh.md). -/
def Obligations.LigatureContributionsLeaveFourFlits : Prop :=
  ∀ (i : Issue) (s : State) (j : Job),
    let l := i.lcore
    let sc := s.scribe l
    let d := sc.arch.g_ l i.f.src2.toNat
    let peer := (d.extractLsb' 0 10).toNat
    let tag := (i.f.imm.extractLsb' 0 16).toNat
    let c := runCore s l
    let held := Tbl.getD s.slotsLig c []
    let lane (n : Nat) : W32 := (sc.arch.v_ l i.f.src1.toNat).extractLsb' (32 * n) 32
    let flit (dl f : Nat) : LigFlit :=
      { tag := tag + f, stepTag := j.stepNo % 4, dest := runCore s dl, lcore := dl, lfmt := false,
        lanes := (List.range 16).map (fun n => lane (16 * f + n)), ncontrib := 1,
        lchk := ((List.range 16).map (fun n => lane (16 * f + n))).foldl (· + ·) 0#32, terms := [], order := none, pos := 0 }
    let term (dl f : Nat) (o : List ChainTerm) : LigFlit :=
      { flit dl f with
        lfmt := d.getLsbD 30, lanes := [], ncontrib := 0, lchk := 0#32, order := some o
        terms := [(o.findIdx (fun x => x.array == (i.f.imm.extractLsb' 18 5).toNat && x.pindex == sc.pindex),
          (List.range 16).map (fun n => lane (16 * f + n)))] }
    let after := noteOut (vBytes (sc.arch.v_ l i.f.src1.toNat)) sc
    issues .lig i s = true → i.f.imm.getLsbD 17 = false → s.job sc.part = some j →
      (d.getLsbD 30 = true → i.f.imm.getLsbD 16 = false →
        exec (.ligContribution i) s = .next (progFault s l fEncoding 0#64 sc.pc))
      ∧ (d.getLsbD 30 = false → planNcore s sc.part ≤ peer →
        exec (.ligContribution i) s = .next (progFault s l fCore (BitVec.ofNat 64 peer) sc.pc))
      ∧ (∀ dl, d.getLsbD 30 = false → i.f.imm.getLsbD 16 = false → peer < planNcore s sc.part → lcoreOf s sc.part peer = some dl →
          relayMode s dl = false →
        (runCore s dl ≠ c → held.length + 4 ≤ 64 → (∀ f < 4, held.any (fun x => sameFlit x (flit dl f)) = false) →
          ∃ t, exec (.ligContribution i) s = .next t
            ∧ t.slotsLig = Tbl.set s.slotsLig c (held ++ [flit dl 0, flit dl 1, flit dl 2, flit dl 3])
            ∧ t.scribes = (retiredAs s l after).scribes ∧ t.parts = s.parts)
        ∧ (dl = l → (s.pcore c).kind ≠ .fenced → sc.flits = [] → sc.receipts = [] →
          exec (.ligContribution i) s = .next (retiredAs s l
            { after with flits := [flit dl 0, flit dl 1, flit dl 2, flit dl 3] })))
      ∧ (∀ dl o, i.f.imm.getLsbD 16 = true → peer < planNcore s sc.part → lcoreOf s sc.part peer = some dl →
          relayMode s dl = false → held = [] →
          (∀ f < 4, chainOrder s dl (tag + f) sc.pindex (i.f.imm.extractLsb' 18 5).toNat = some o) →
          0 < o.findIdx (fun x => x.array == (i.f.imm.extractLsb' 18 5).toNat && x.pindex == sc.pindex) →
          ∃ t, exec (.ligContribution i) s = .next t
            ∧ t.slotsLig = Tbl.set s.slotsLig c [term dl 0 o, term dl 1 o, term dl 2 o, term dl 3 o]
            ∧ t.scribes = (retiredAs s l after).scribes ∧ t.parts = s.parts)

/-- LIG receipts wait for their tags, write the sums, and time out with the sums so far (spec/07_instructions_arrays_and_data.md, spec/05_cores_and_mesh.md). -/
def Obligations.LigatureReceiptsCompleteOrTimeOut : Prop :=
  (∀ (i : Issue) (s : State),
    let l := i.lcore
    let sc := s.scribe l
    let d := sc.arch.g_ l i.f.src2.toNat
    let at_ := 128 * (i.f.imm.extractLsb' 18 14).toNat
    let r (lfmt : Bool) (n : Nat) : LigReceipt :=
      { tag := (i.f.imm.extractLsb' 0 16).toNat, lfmt := lfmt, dest := i.f.dest.toNat, expected := n, index := sc.pc, failed := false }
    let merge := r false (d.extractLsb' 16 10).toNat
    let chain := r (d.getLsbD 30) (leNat (Mem.readBytes sc.sram at_ 4))
    issues .lig i s = true → i.f.imm.getLsbD 17 = true →
      (i.f.imm.getLsbD 16 = false → d.getLsbD 30 = false →
        ((∃ f < 4, gathered sc merge f = none) → (∀ f < 4, tagFailed sc merge f = false) →
          exec (.ligReceiptMerge i) s = .next (retiredAs s l { sc with receipts := sc.receipts ++ [merge] }))
        ∧ (∀ fl : Nat → LigFlit, sc.receipts = [] → 0 < merge.expected →
            (∀ f < 4, gathered sc merge f = some (fl f) ∧ (fl f).terms = [] ∧ (fl f).ncontrib = merge.expected
              ∧ (fl f).lanes.length = 16 ∧ (fl f).lanes.foldl (· + ·) 0#32 = (fl f).lchk) →
          ∃ w : W2048, (∀ f < 4, ∀ n < 16, w.extractLsb' (32 * (16 * f + n)) 32 = (fl f).lanes.getD n 0#32)
            ∧ ∃ t, exec (.ligReceiptMerge i) s = .next t ∧ (t.scribe l).arch = sc.arch.setV i.f.dest.toNat w
              ∧ (t.scribe l).receipts = [] ∧ (∀ f < 4, gathered (t.scribe l) merge f = none) ∧ t.parts = s.parts
              ∧ t.pages = s.pages))
      ∧ (i.f.imm.getLsbD 16 = true → at_ + 4 ≤ 0x180000 → sramReadWaits sc at_ 4 = false →
          (∃ f < 4, gathered sc chain f = none) → (∀ f < 4, tagFailed sc chain f = false) →
        exec (.ligReceiptChain i) s = .next (retiredAs s l { sc with receipts := sc.receipts ++ [chain] })))
  ∧ (∀ (l tag : Nat) (s : State) (r : LigReceipt),
    let sc := s.scribe l
    sc.receipts.find? (fun q => q.tag == baseTag tag && !tagDone sc q (tag % 4)) = some r →
    (∀ f < 4, ∀ x, gathered sc r f = some x → (flitSum x).length = 16) →
      ∃ t w, exec (.ligReceiptTimeout l tag) s = .next t ∧ (t.scribe l).arch = sc.arch.setV r.dest w
        ∧ (t.scribe l).receipts = sc.receipts.erase r ∧ (t.page pgMesh).intRaw.getLsbD 8 = true
        ∧ (t.scribe l).pc = sc.pc ∧ (t.scribe l).sram = sc.sram
        ∧ ∀ f < 4, gathered sc r f = none → ∀ n < 16, w.extractLsb' (32 * (16 * f + n)) 32 = 0#32)
  ∧ (∀ (core tag stepTag : Nat) (s : State) (f : LigFlit),
    let held := Tbl.getD s.slotsLig core []
    held.find? (fun x => x.tag == tag && x.stepTag == stepTag) = some f →
      ∃ t, exec (.ligSlotTimeout core tag stepTag) s = .next t ∧ t.slotsLig = Tbl.set s.slotsLig core (held.erase f)
        ∧ (t.page pgMesh).intRaw.getLsbD 8 = true ∧ t.scribes = s.scribes
        ∧ (t.pcore core).ligTimeout = min ((s.pcore core).ligTimeout + 1) 255)

/-- WSTRK and HALT end a core's step once its work is complete; BAR releases when the last participant arrives (spec/08_instructions_engine_and_control.md, spec/06_program_contract.md). -/
def Obligations.StepEndAndBarriers : Prop :=
  ∀ (i : Issue) (s : State),
    let l := i.lcore
    let sc := s.scribe l
    let busy := !sc.txs.isEmpty || !sc.sends.isEmpty || !sc.recvs.isEmpty || !sc.receipts.isEmpty || arraysBusy s l 0xFFFFFFFF
    let ended (o : Host.Outcome State Fault Refusal) (m : ScribeMode) (h : Bool) : Prop :=
      (busy = true → o = .next s)
      ∧ (busy = false → ∃ t, o = .next t ∧ (t.scribe l).mode = m ∧ (t.scribe l).loops = []
          ∧ (t.scribe l).recorded = some sc.digest ∧ (t.scribe l).arch = { sc.arch with halted := h }
          ∧ (t.scribe l).sram = sc.sram ∧ (t.scribe l).pc = sc.pc
          ∧ ((s.remapOf l).mode = .arrays → ∀ n < 32,
              t.array (arrayKey s l n) = { s.array (arrayKey s l n) with log := CheckLog.clear }))
    let arrived := s.setScribe l { (retired s l sc.arch).scribe l with atBar := true }
    (issues .wstrk i s = true → ended (exec (.wstrk i) s) .ready false)
    ∧ (issues .halt i s = true → ended (exec (.halt i) s) .halted true)
    ∧ (issues .bar i s = true → ∀ pl, (s.part sc.part).plan = some pl → l ∈ barCores s pl →
        ((∃ c ∈ barCores s pl, c ≠ l ∧ (s.scribe c).atBar = false) → exec (.bar i) s = .next arrived)
        ∧ (∀ j, s.job sc.part = some j → (∀ c ∈ barCores s pl, c ≠ l → (s.scribe c).atBar = true) →
            (∀ c ∈ barCores s pl, (s.scribe c).txs = []) →
            ∃ t, exec (.bar i) s = .next t ∧ (∀ c ∈ barCores s pl, (t.scribe c).atBar = false)
              ∧ t.job sc.part = some { j with barEpoch := j.barEpoch + 1 }
              ∧ (t.scribe l).pc = (loopEnd sc.loops sc.pc).2 ∧ (t.scribe l).arch = sc.arch))

/-- REQN reads the list, TOKO, SPEC and BLOT stage on the blotter, CANQ reads the cancel, SUSP suspects the step (spec/08_instructions_engine_and_control.md). -/
def Obligations.ServingInstructionsStageOnTheBlotter : Prop :=
  ∀ (i : Issue) (s : State) (j : Job),
    let l := i.lcore
    let sc := s.scribe l
    let g (n : Nat) : W64 := sc.arch.g_ l n
    let d := i.f.dest.toNat
    let e := j.reqList[(g i.f.src1.toNat).toNat]?
    let slot := (g i.f.src1.toNat).toNat % 65536
    let area := (g i.f.src2.toNat).toNat % 65536
    let r := g i.f.src2.toNat
    let a := sc.arch.a_ l i.f.src1.toNat
    let lo := (a.extractLsb' 0 60).toNat
    let n := 64 * (i.f.imm.extractLsb' 7 8).toNat
    let off := 64 * (i.f.imm.extractLsb' 0 7).toNat
    let ds := draftPositions s sc.part slot j
    let staged (it : Item) : State := s.setJob sc.part { j with items := j.items ++ [it] }
    let read (n : Nat) (a : Arch) : State := retiredAs s l
      (noteIn ((List.range n).flatMap (fun k => leBytes 8 (a.g_ l (d + k)).toNat)) { sc with arch := a })
    s.job sc.part = some j → j.replaying = false →
      (issues .reqn i s = true →
        (i.f.flags.getLsbD 0 = true →
          exec (.reqn i) s = .next (read 1 (sc.arch.setG d (BitVec.ofNat 64 j.reqList.length))))
        ∧ (i.f.flags.getLsbD 0 = false → e = none →
          exec (.reqn i) s = .next (read 3 (((sc.arch.setG d 0#64).setG (d + 1) 0#64).setG (d + 2) 0#64)))
        ∧ (∀ x, i.f.flags.getLsbD 0 = false → e = some x → x.slot < 65536 → x.positions < 4096 → x.position < 2 ^ 32 →
          ∃ w0 w1 : W64, exec (.reqn i) s = .next (read 3 (((sc.arch.setG d w0).setG (d + 1) w1).setG (d + 2) x.seed))
            ∧ (w0.extractLsb' 0 16).toNat = x.slot ∧ w0.getLsbD 16 = true ∧ w0.getLsbD 17 = x.prefill
            ∧ w0.getLsbD 18 = x.speculative ∧ w0.getLsbD 19 = x.resumed ∧ (w0.extractLsb' 20 12).toNat = x.positions
            ∧ (w0.extractLsb' 32 32).toNat = x.position ∧ (w1.extractLsb' 32 32).toNat = min x.delivered (2 ^ 32 - 1)))
      ∧ (issues .toko i s = true → isEntry s sc.part = true → listed j slot = true → (stagedEnds j slot).length < 16 →
          (∀ k ∈ stagedEnds j slot, k = 0) →
          let it : Item := .record slot (r.extractLsb' 0 32).toNat (r.extractLsb' 32 32).toNat (i.f.imm.extractLsb' 0 2).toNat
          exec (.toko i) s = .next (retiredAs (staged it) l (noteItem s it sc)))
      ∧ (issues .toko i s = true → listed j slot = false → exec (.toko i) s = .next (progFault s l fEncoding 0#64 sc.pc))
      ∧ (issues .canq i s = true →
          let b := (s.slot slot).part == sc.part && (s.slot slot).cancel.isSome
          exec (.canq i) s = .next (retiredAs s l (noteIn (leBytes 1 (if b then 1 else 0)) { sc with arch := sc.arch.setP d b })))
      ∧ (issues .spec i s = true → listed j slot = true → (∀ p t, .spec slot p t ∉ j.items) →
          (i.f.imm.getLsbD 0 = false → area ≤ ds.length →
            exec (.specVerify i) s = .next (retiredAs (staged (.spec slot (ds.take area) (ds.drop area))) l
              (noteItem s (.spec slot (ds.take area) (ds.drop area)) sc)))
          ∧ (i.f.imm.getLsbD 0 = true →
            exec (.specDrop i) s = .next (retiredAs (staged (.spec slot [] ds)) l (noteItem s (.spec slot [] ds) sc))))
      ∧ (issues .blot i s = true → listed j area = true → (a.extractLsb' 60 4).toNat = 0 → lo % 64 = 0 → lo + n ≤ 0x180000 →
          (i.f.flags.getLsbD 0 = false → sramReadWaits sc lo n = false → exec (.blotStage i) s = .next (retiredAs
            (staged (.state area off (Mem.readBytes sc.sram lo n))) l
            (noteItem s (.state area off (Mem.readBytes sc.sram lo n)) (addTx sc .blot false lo n))))
          ∧ (i.f.flags.getLsbD 0 = true → sramWriteWaits sc lo n = false → exec (.blotRead i) s = .next (retiredAs s l
            (noteIn (Mem.readBytes (stateRead s j area) off n)
              (addTx { sc with sram := Mem.writeBytes sc.sram lo (Mem.readBytes (stateRead s j area) off n) } .blot true lo n)))))
      ∧ (issues .susp i s = true → j.hold = none → j.suspects = [] → j.fault = none → ∃ t u, exec (.susp i) s = .next t
          ∧ t.job sc.part = some { j with suspects := [u] } ∧ u.check = 13 ∧ u.cause = (i.f.imm.extractLsb' 0 8).toNat
          ∧ u.reqs = (if i.f.flags.getLsbD 0 then .slot slot else .all) ∧ (t.page pgInteg).intRaw.getLsbD 0 = true
          ∧ (t.scribe l).arch = sc.arch)

/-- Link faults, router faults, the route-table switch and flits at a router port (spec/05_cores_and_mesh.md). -/
def Obligations.MeshFaultsAndFlits : Prop :=
  (∀ (c port : Nat) (s : State),
    let down (o : Host.Outcome State Fault Refusal) (kind : Nat) : Prop := ∃ t, o = .next t
      ∧ (t.pcore c).portUp = (s.pcore c).portUp - 2 ^ port ∧ (t.page pgMesh).intRaw.getLsbD 0 = true
      ∧ t.mesh.rtPending = true ∧ t.mesh.faultPcore = c ∧ t.mesh.faultPort = port ∧ t.mesh.faultKind = kind
      ∧ t.scribes = s.scribes ∧ t.arrays = s.arrays ∧ t.slotsLig = s.slotsLig
    let crossing := (match meshNeighbour c port with
      | some n => coreRegion n != coreRegion c
      | none => false)
    let kind := if crossing then 3 else 0
    ((s.pcore c).portUp.testBit port = true →
        down (exec (.meshRetryExhausted c port) s) kind ∧ down (exec (.meshCreditTimeout c port) s) kind
        ∧ (c < 1152 → (s.pcore c).rtrUp = true → ∀ x, x.kind ≠ 1 → down (exec (.routerFault c port x) s) kind))
    ∧ ((s.pcore c).portUp.testBit port = false → exec (.meshRetryExhausted c port) s = .next s
        ∧ exec (.meshCreditTimeout c port) s = .next s)
    ∧ (c < 1152 → (s.pcore c).rtrUp = true → (s.pcore c).kind = .spare → ∃ t, exec (.routerFault c 7 { kind := 1, adder := none }) s = .next t
        ∧ (t.pcore c).kind = .fenced ∧ (t.page pgMesh).intRaw.getLsbD 3 = true ∧ (t.pcore c).rtrUp = false ∧ (t.pcore c).rtrFault = true
        ∧ (∀ p < 5, (t.pcore c).portUp.testBit p = false) ∧ (t.page pgMesh).intRaw.getLsbD 1 = true
        ∧ t.mesh.rtPending = true ∧ t.mesh.faultKind = 1 ∧ t.scribes = s.scribes)
    ∧ (∀ (tag st : Nat) (x : LigFlit), c < 1152 → (s.pcore c).rtrUp = true →
        (Tbl.getD s.slotsLig c []).find? (fun f => f.lfmt && f.tag == tag && f.stepTag == st) = some x →
        ∃ t, exec (.routerFault c 7 { kind := 1, adder := some (tag, st) }) s = .next t ∧ (t.page pgMesh).intRaw.getLsbD 9 = true
          ∧ (t.page pgMesh).intRaw.getLsbD 1 = true ∧ (t.pcore c).rtrUp = false))
  ∧ (∀ s : State,
      (s.mesh.rtPending = false → exec .routeTableSwitch s = .next s)
      ∧ (s.mesh.rtPending = true → s.mesh.lostFor = [] → s.slotsLig = [] → s.vcBuf = [] →
        ∃ t, exec .routeTableSwitch s = .next t
          ∧ t.mesh = { (buildRoutes s (freeRoutes s)).mesh with
              rtVersion := (s.mesh.rtVersion + 1) % 65536
              rtUpdates := min (s.mesh.rtUpdates + 1) 65535
              rtPending := false }
          ∧ (t.page pgMesh).intRaw.getLsbD 2 = true ∧ t.scribes = s.scribes ∧ t.pcores = s.pcores ∧ t.slotsLig = s.slotsLig))
  ∧ (∀ (c port : Nat) (crc : BitVec 16) (f : Flit) (s : State), (s.pcore c).rtrUp = true → linkUp s c port = true →
      (flitCrc f ≠ crc → exec (.flitReceived c port crc f) s =
        .next (s.setPcore c { s.pcore c with retry := min ((s.pcore c).retry + 1) 65535 }))
      ∧ (flitCrc f = crc → port = 4 → f.dest ≠ c → ∃ t, exec (.flitReceived c port crc f) s = .next t
          ∧ (t.pcore c).discard = min ((s.pcore c).discard + 1) 65535 ∧ t.scribes = s.scribes ∧ t.slotsLig = s.slotsLig)
      ∧ (flitCrc f = crc → port < 4 → f.typ ≠ 3 → readyFor s c port f = false → exec (.flitReceived c port crc f) s = .next s)
      ∧ (flitCrc f = crc → port < 4 → f.typ ≠ 3 → f.vc < 4 → readyFor s c port f = true → f.dest ≠ c →
          leavesMesh s c f = false →
          (hasCredit s c port f.vc = false → exec (.flitReceived c port crc f) s = .next s)
          ∧ (hasCredit s c port f.vc = true → ∃ t, exec (.flitReceived c port crc f) s = .next t
              ∧ bufOf t c port f.vc = bufOf s c port f.vc ++ [f] ∧ t.scribes = s.scribes ∧ t.pcores = s.pcores
              ∧ t.slotsLig = s.slotsLig ∧ t.parts = s.parts))
      ∧ (∀ n x, flitCrc f = crc → port < 4 → f.typ = 3 → meshNeighbour c port = some n → n ≠ c →
          Tbl.getD s.slotsLig n [] = [x] → onWire f x = true → routeOf s n x.heading = some (oppositePort port) → x.order = none →
          x.dest ≠ c → relayMode s x.lcore = false → Tbl.getD s.slotsLig c [] = [] →
          ∃ t, exec (.flitReceived c port crc f) s = .next t ∧ Tbl.getD t.slotsLig c [] = [x] ∧ Tbl.getD t.slotsLig n [] = []
            ∧ (t.pcore c).slotHw = max (s.pcore c).slotHw 1 ∧ t.scribes = s.scribes))

/-- FENCE_ONLY, FENCE_AND_REPLACE and MIGRATE act on an ACTIVE core, and are refused with their codes (spec/05_cores_and_mesh.md). -/
def Obligations.FenceReplaceAndMigrateOrders : Prop :=
  ∀ (src c : Nat) (s : State), c < 2048 → canWrite s src pgMesh = true →
    let l := (s.pcore c).lcore
    let starts (o : Host.Outcome State Fault Refusal) (op : Nat) (f : State → Prop) : Prop := ∃ t, o = .next t ∧ f t
      ∧ armed t src pgMesh = false ∧ t.mesh.fenceOp = op ∧ t.mesh.fencePcore = c
    let refused (o : Host.Outcome State Fault Refusal) (code : Nat) : Prop := ∃ t, o = .next t
      ∧ t.mesh = { s.mesh with fenceResult := code } ∧ t.pcores = s.pcores ∧ t.remap = s.remap ∧ t.scribes = s.scribes
      ∧ armed t src pgMesh = false
    (armed s src pgMesh = false →
      exec (.fenceOnly src c) s = .next (capture s pgMesh 0x050 1 true (BitVec.ofNat 64 (c + 2048)) src)
      ∧ exec (.fenceAndReplace src c) s = .next (capture s pgMesh 0x050 1 true (BitVec.ofNat 64 (c + 4096)) src)
      ∧ exec (.migrate src c) s = .next (capture s pgMesh 0x050 1 true (BitVec.ofNat 64 (c + 6144)) src))
    ∧ (armed s src pgMesh = true → s.mesh.fenceBusy = true → refused (exec (.fenceOnly src c) s) 3
      ∧ refused (exec (.fenceAndReplace src c) s) 3 ∧ refused (exec (.migrate src c) s) 3)
    ∧ (armed s src pgMesh = true → s.mesh.fenceBusy = false → 1151 < c → refused (exec (.fenceOnly src c) s) 4
      ∧ refused (exec (.fenceAndReplace src c) s) 4 ∧ refused (exec (.migrate src c) s) 4)
    ∧ (armed s src pgMesh = true → s.mesh.fenceBusy = false → c ≤ 1151 → (s.pcore c).kind ≠ .active →
      refused (exec (.fenceOnly src c) s) 1 ∧ refused (exec (.fenceAndReplace src c) s) 1
      ∧ refused (exec (.migrate src c) s) 1)
    ∧ (armed s src pgMesh = true → s.mesh.fenceBusy = false → c ≤ 1151 → (s.pcore c).kind = .active →
        migrationSpare s c = none → runsOn s c = [l] →
      starts (exec (.fenceOnly src c) s) 1 (fun t => (t.pcore c).kind = .fenced
        ∧ (t.remapOf l).next = some ((s.remapOf l).pcore, .hosted, (s.remapOf l).pcore)
        ∧ (t.page pgMesh).intRaw.getLsbD 3 = true ∧ t.mesh.fenceBusy = true)
      ∧ (∀ sp, sp ≠ c → chooseSpare s c = some sp →
        starts (exec (.fenceAndReplace src c) s) 2 (fun t => (t.pcore c).kind = .fenced ∧ (t.pcore sp).kind = .taking
          ∧ (t.pcore sp).lcore = l ∧ (t.pcore sp).takeFrom = c ∧ (t.remapOf l).next = some (sp, .fairCopy, sp)
          ∧ t.mesh.fenceSpare = sp ∧ (t.page pgMesh).intRaw.getLsbD 3 = true)
        ∧ starts (exec (.migrate src c) s) 3 (fun t => (t.pcore c).kind = .active ∧ (t.pcore sp).kind = .taking
          ∧ (t.pcore sp).lcore = l ∧ (t.pcore sp).takeWhy = .migrate ∧ t.remap = s.remap ∧ t.mesh.fenceSpare = sp
          ∧ t.scribes = s.scribes))
      ∧ (chooseSpare s c = none →
        starts (exec (.fenceAndReplace src c) s) 2 (fun t => (t.pcore c).kind = .fenced ∧ t.mesh.fenceBusy = false
          ∧ t.mesh.fenceResult = 2 ∧ (t.remapOf l).next = some ((s.remapOf l).pcore, .hosted, (s.remapOf l).pcore)
          ∧ (t.page pgMesh).intRaw.getLsbD 6 = true)
        ∧ starts (exec (.migrate src c) s) 3 (fun t => t.pcores = s.pcores ∧ t.remap = s.remap ∧ t.scribes = s.scribes
          ∧ t.mesh.fenceBusy = false ∧ t.mesh.fenceResult = 2)))

/-- A stroke boundary completes while strokes run: it raises the stroke number, restarts the count and leaves what no boundary touches
(spec/04_stroke_timing.md). -/
def Obligations.StrokeBoundaryRaisesTheNumber : Prop :=
  (∀ s : State, strokesRun s = true → s.shut = false → ∃ t, exec .strokeBoundary s = .next t
      ∧ t.stroke.number = (s.stroke.number + 1) % 2 ^ 64 ∧ t.stroke.count = 0 ∧ t.pending = s.pending ∧ t.clock = s.clock)
  ∧ (∀ s : State, strokesRun s = true → s.shut = false → s.bring.lockStop = false → s.stroke.stopPend = false →
    ∃ t, exec .strokeBoundary s = .next t
      ∧ t.stroke = { s.stroke with
          base := s.stroke.base + max s.stroke.periodAct s.stroke.count, count := 0, number := (s.stroke.number + 1) % 2 ^ 64, confirmed := false,
          missed := if s.stroke.confirmed then 0 else s.stroke.missed + 1,
          holdTicks := t.stroke.holdTicks, refTicks := t.stroke.refTicks }
      ∧ t.pending = s.pending ∧ t.therm = s.therm ∧ t.conv = s.conv ∧ t.clock = s.clock ∧ t.ports = s.ports ∧ t.pins = s.pins
      ∧ t.sec = s.sec ∧ t.regions = s.regions ∧ t.arms = s.arms ∧ t.latches = s.latches)
  ∧ (∀ s : State, strokesRun s = true → s.shut = false → s.bring.lockStop = false → s.stroke.stopPend = true →
      (∀ x ∈ s.parts, x.2.plan = none) → ∃ t, exec .strokeBoundary s = .next t
      ∧ t = { s with stroke := t.stroke } ∧ t.stroke.state = .stopped ∧ t.stroke.stopPend = false ∧ t.stroke.count = 0
      ∧ t.stroke.number = (s.stroke.number + 1) % 2 ^ 64)
  ∧ (∀ s : State, strokesRun s = true → s.shut = false → s.bring.lockStop = true → ∃ t, exec .strokeBoundary s = .next t
      ∧ t.stroke.state = .stopped ∧ t.parts = [] ∧ t.slots = [] ∧ t.scribes = [] ∧ t.pins.health = false ∧ t.regs = s.regs)
  ∧ (∀ s : State, strokesRun s = false ∨ s.shut = true → exec .strokeBoundary s = .next s)

/-- The status point, the decision point and the messages between a job's devices (spec/04_stroke_timing.md). -/
def Obligations.StatusAndDecisionSequence : Prop :=
  (∀ s : State, strokesRun s = true → s.shut = false → s.stroke.count ≤ statusAt s → ∃ t, exec .statusPoint s = .next t
      ∧ JobsOnly { s with stroke := t.stroke } t ∧ t.stroke.count = statusAt s ∧ t.stroke.number = s.stroke.number
      ∧ ∀ p j, s.job p = some j →
          (j.inStep = false → (multiDevice j = false ∨ j.joined = true) → t.job p = some j)
          ∧ (j.inStep = false → multiDevice j = true → j.joined = false → ∃ k, t.job p = some k
              ∧ k = { j with statusSent := k.statusSent, heard := k.heard } ∧ k.statusSent ≠ none
              ∧ (decides s p j = true → j.pos ∈ k.heard) ∧ ∀ x ∈ j.heard, x ∈ k.heard)
          ∧ (j.inStep = true → ∃ st, st.ready = deviceReady s p ∧ st.stepNo = curStep j ∧ st.refused = j.refusedAt
              ∧ t.job p = some { j with
                  statusSent := some st
                  dueAt := if j.total = 0 ∧ j.hold = none ∧ j.inserting = false then s.stroke.base + statusAt s else j.dueAt
                  statuses := if decides s p j then putStatus j.statuses st else j.statuses }))
  ∧ (∀ s : State, (strokesRun s = false ∨ statusAt s < s.stroke.count) → exec .statusPoint s = .next s)
  ∧ (∀ s : State, strokesRun s = true → s.shut = false → s.stroke.count ≤ decisionAt s → ∃ t, exec .decisionPoint s = .next t
      ∧ JobsOnly { s with stroke := t.stroke } t ∧ t.stroke.count = decisionAt s ∧ t.stroke.number = s.stroke.number
      ∧ ∀ p j, s.job p = some j →
          (decides s p j = false ∨ (j.inStep = true ∧ j.decision ≠ none)
              ∨ (j.inStep = false ∧ (multiDevice j = false ∨ j.joined = true ∨ allHeard j = false)) → t.job p = some j)
          ∧ (j.inStep = false → decides s p j = true → multiDevice j = true → j.joined = false → allHeard j = true →
              ∃ d, t.job p = some { j with joined := true, decision := some d } ∧ d.commit = false ∧ d.stepNo = 0)
          ∧ (j.inStep = true → decides s p j = true → j.decision = none → ∃ d, t.job p = some { j with decision := some d }
              ∧ d.stepNo = curStep j ∧ (d.commit = true ↔ allReady j)
              ∧ (d.refused = true ↔ ∃ x ∈ j.statuses, x.stepNo = curStep j ∧ x.refused ≠ [])))
  ∧ (∀ s : State, (strokesRun s = false ∨ decisionAt s < s.stroke.count) → exec .decisionPoint s = .next s)
  ∧ (∀ (p : Nat) (j : Job) (m : StatusMsg) (s : State), s.job p = some j → multiDevice j = true → notEntry s p = false →
      m.position < j.block.length → strokesRun s = true →
      (m.number % 65536 = s.stroke.number % 65536 → j.inStep = true → ∃ st, exec (.statusMessage p m) s
          = .next (s.setJob p { j with statuses := (j.statuses.filter (fun y => y.position != m.position)) ++ [st] })
        ∧ st.position = m.position ∧ st.ready = m.ready ∧ st.stepNo = m.stepNo ∧ st.holds = m.holds ∧ st.refused = m.refused)
      ∧ (m.number % 65536 = s.stroke.number % 65536 → j.inStep = false → j.joined = false → ∃ ns, exec (.statusMessage p m) s
          = .next (s.setJob p { j with heard := ns }) ∧ m.position ∈ ns ∧ ∀ x ∈ j.heard, x ∈ ns)
      ∧ (m.number % 65536 ≠ s.stroke.number % 65536 → ∃ t, exec (.statusMessage p m) s = .next t
          ∧ t.stroke = { s.stroke with numErr := true } ∧ eventAt t pgStroke 4 = true ∧ t.slots = s.slots ∧ t.scribes = s.scribes
          ∧ ∀ q i, s.job q = some i → t.job q = some (if multiDevice i ∧ j.block.getD m.position 0 ∈ i.block
              then { i with numHold := true } else i)))
  ∧ (∀ (p : Nat) (j : Job) (m : DecisionMsg) (s : State), s.job p = some j → strokesRun s = true → m.buddy = false →
      decides s p j = false →
      (decisionFits s m.number = true → j.inStep = true → m.stepNo = curStep j → ∃ d, exec (.decisionMessage p m) s
          = .next (s.setJob p { j with decision := some d })
        ∧ d.commit = m.commit ∧ d.stepNo = m.stepNo ∧ d.holds = m.holds ∧ d.adopt = m.adopt ∧ d.refused = m.refused)
      ∧ (decisionFits s m.number = true → j.inStep = false → j.joined = false → m.stepNo = 0 → m.commit = false →
          exec (.decisionMessage p m) s = .next (s.setJob p { j with joined := true }))
      ∧ (decisionFits s m.number = false → ∃ t, exec (.decisionMessage p m) s = .next t
          ∧ t.stroke = { s.stroke with numErr := true } ∧ eventAt t pgStroke 4 = true ∧ t.slots = s.slots ∧ t.scribes = s.scribes))

/-- Job start, abandoned spans, automatic PARTIAL, the hold limit and the period switch at a boundary (spec/04_stroke_timing.md, spec/10_integrity.md). -/
def Obligations.SpansPoliciesAndHoldLimits : Prop :=
  (∀ (p : Nat) (pl : Plan) (j : Job) (s : State), (s.part p).plan = some pl → s.job p = some j →
    (atBoundary s = true → j.started = false → pl.startAt ≤ s.stroke.number → j.inStep = false → j.hold = none →
        j.abandoned = false → nothingHolds s p { j with started := true } → ∃ t k, exec (.jobStart p) s = .next t
      ∧ t.job p = some k ∧ k.started = true ∧ k.inStep = true ∧ k.openStroke = s.stroke.number ∧ k.span = 0 ∧ k.total = 0 ∧ k.reqList = []
      ∧ k.items = [] ∧ k.stepNo = j.stepNo ∧ k.dueAt = s.stroke.base + statusAt s ∧ (∀ l ∈ pl.lcores, (t.scribe l).pc = 0 ∧ (t.scribe l).loops = [])
      ∧ t.slots = s.slots ∧ t.hostOut = s.hostOut ∧ t.stroke = s.stroke)
    ∧ ((atBoundary s = false ∨ j.started = true ∨ s.stroke.number < pl.startAt) → exec (.jobStart p) s = .next s)
    ∧ (atBoundary s = true → j.inStep = true → j.hold = none → maxSpan s p ≤ j.span → j.inserting = false → commitHeld j = false →
        (j.abandoned = false → nothingHolds s p j → ∃ t k, exec (.spanAbandon p) s = .next t
          ∧ t.job p = some k ∧ k.inStep = true ∧ k.abandoned = true ∧ k.refuseAll = true ∧ k.span = 0 ∧ k.items = []
          ∧ k.openStroke = j.openStroke ∧ k.total = j.total ∧ k.dueAt = j.dueAt ∧ k.stepNo = j.stepNo ∧ k.reqList = j.reqList
          ∧ (∀ l ∈ pl.lcores, (t.scribe l).arch = (s.scribe l).ckpt ∧ (t.scribe l).pc = 0)
          ∧ eventAt t pgStroke 10 = true ∧ t.slots = s.slots ∧ t.hostOut = s.hostOut ∧ t.stroke = s.stroke)
        ∧ (j.abandoned = true → ∃ t k, exec (.spanAbandon p) s = .next t
          ∧ t.job p = some k ∧ k.inStep = false ∧ k.halted = true ∧ k.haltCause = 1 ∧ k.items = []
          ∧ (∀ l ∈ pl.lcores, (t.scribe l).mode = .stopped) ∧ eventAt t pgStroke 10 = true ∧ eventAt t pgStroke 11 = true
          ∧ eventAt t (pgFunc p) 4 = true ∧ t.slots = s.slots ∧ t.hostOut = s.hostOut ∧ t.stroke = s.stroke))
    ∧ ((atBoundary s = false ∨ j.inStep = false ∨ j.hold ≠ none ∨ j.span < maxSpan s p ∨ commitHeld j = true) → exec (.spanAbandon p) s = .next s)
    ∧ (∀ h, j.hold = some h → atBoundary s = true → 4 ≤ h.age → h.slots ≠ [] → nothingHolds s p j →
        ∃ t k, exec (.suspectHoldLimit p) s = .next t ∧ t.job p = some k ∧ k.hold = none ∧ k.items = []
          ∧ k.inStep = true ∧ eventAt t pgInteg 3 = true ∧ eventAt t (pgFunc p) 1 = true ∧ t.hostOut = s.hostOut
          ∧ ∀ n, t.slot n = if n ∈ h.slots ∧ mayCommit s p n = true then { s.slot n with frozen := true } else s.slot n))
  ∧ (∀ (p : Nat) (j : Job) (s : State), s.job p = some j → atBoundary s = true → betweenSteps s j = true →
    let fresh := j.inStep && j.hold.isNone && !j.inserting && j.openStroke == s.stroke.number
    (policyPartial s p = false → (s.reg pgStroke (0x100 + 0x20 * p)).getLsbD 2 = true → j.auto = false → 2 ≤ j.strRun →
        ∃ t, exec (.autoPartialOn p) s = .next t ∧ eventAt t pgStroke 8 = true
          ∧ OnlyEvents (s.setJob p { j with auto := true, partialPol := if fresh then true else j.partialPol }) t)
    ∧ (j.auto = true → relax s p ≤ j.cleanRun → policyPartial s p = false →
        ∃ t, exec (.autoPartialOff p) s = .next t ∧ eventAt t pgStroke 9 = true
          ∧ OnlyEvents (s.setJob p { j with auto := false, partialPol := if fresh then false else j.partialPol }) t)
    ∧ ((j.auto = true ∨ j.strRun < 2) → exec (.autoPartialOn p) s = .next s)
    ∧ ((j.auto = false ∨ j.cleanRun < relax s p) → exec (.autoPartialOff p) s = .next s))
  ∧ (∀ (period : Nat) (w : W32) (n : Nat) (s : State), s.stroke.pend = some (period, w, n) →
    (strokesRun s = true → s.stroke.count = 0 → n ≤ s.stroke.number → ∃ t, exec .periodSwitch s = .next t
        ∧ OnlyEvents { s with stroke := { s.stroke with periodAct := period, layoutAct := w, pend := none } } t
        ∧ eventAt t pgStroke 5 = true)
    ∧ ((strokesRun s = false ∨ s.stroke.count ≠ 0 ∨ s.stroke.number < n) → exec .periodSwitch s = .next s))
  ∧ (∀ s : State, s.stroke.pend = none → exec .periodSwitch s = .next s)

/-- STROKE_SYNC pulses, loss of synchronisation and of REFCLK, and the end and the limit of holdover (spec/04_stroke_timing.md). -/
def Obligations.SynchronisationStates : Prop :=
  (∀ (wide : Bool) (off : Int) (s : State), s.stroke.state = .stopped ∨ (s.stroke.state = .waitEpoch ∧ wide = false) →
      exec (.strokeSyncPulse wide off) s = .next s)
  ∧ (∀ (off : Int) (s : State), s.stroke.state = .waitEpoch → s.bring.lockStop = false → s.stroke.stopPend = false →
      ∃ t, exec (.strokeSyncPulse true off) s = .next t ∧ t.stroke.state = .locked ∧ t.stroke.count = 0
        ∧ t.stroke.base = s.stroke.base + s.stroke.count ∧ t.stroke.number = epochNumber s ∧ t.stroke.syncOk = true ∧ t.stroke.confirmed = true ∧ t.stroke.missed = 0
        ∧ t.stroke.resync = false ∧ t.therm = s.therm ∧ t.regions = s.regions ∧ t.ports = s.ports)
  ∧ (∀ s : State, s.stroke.state = .locked →
      let ok : Stroke := { s.stroke with syncOk := true, confirmed := true, missed := 0 }
      exec (.strokeSyncPulse false 0) s = .next { s with stroke := ok }
      ∧ (∀ off : Int, off = 1 ∨ off = 2 → ∃ t, exec (.strokeSyncPulse false off) s = .next t
          ∧ OnlyEvents { s with stroke := { ok with
              base := s.stroke.base + off.toNat, count := 0, slips := min (s.stroke.slips + 1) 65535 } } t
          ∧ eventAt t pgStroke 3 = true)
      ∧ (∀ off : Int, off = -1 ∨ off = -2 → s.bring.lockStop = false → s.stroke.stopPend = false →
          ∃ t, exec (.strokeSyncPulse false off) s = .next t ∧ t.stroke.count = 0
          ∧ t.stroke.number = (s.stroke.number + 1) % 2 ^ 64 ∧ t.stroke.slips = min (s.stroke.slips + 1) 65535
          ∧ t.stroke.confirmed = true ∧ eventAt t pgStroke 3 = true)
      ∧ (∀ (wide : Bool) (off : Int), off < -2 ∨ 2 < off →
          exec (.strokeSyncPulse wide off) s = .next { s with stroke := { s.stroke with syncOk := false } })
      ∧ (s.stroke.resync = true →
          ∃ t, exec (.strokeSyncPulse true 0) s = .next t ∧ t.stroke = { ok with number := epochNumber s, resync := false }
          ∧ t.regs = s.regs ∧ t.pages = s.pages ∧ t.arrays = s.arrays ∧ t.therm = s.therm ∧ t.weight = s.weight
          ∧ ∀ p j, s.job p = some j → t.job p = some { j with openStroke := j.openStroke + epochNumber s - s.stroke.number })
      ∧ (s.stroke.resync = false → s.stroke.number % 65536 = 0 → exec (.strokeSyncPulse true 0) s = .next { s with stroke := ok })
      ∧ (s.stroke.resync = false → s.stroke.number % 65536 ≠ 0 → ∃ t, exec (.strokeSyncPulse true 0) s = .next t
          ∧ t.stroke = { ok with numErr := true } ∧ eventAt t pgStroke 4 = true ∧ t.slots = s.slots ∧ t.scribes = s.scribes
          ∧ ∀ p j, s.job p = some j → t.job p = some { j with numHold := true }))
  ∧ (∀ (wide : Bool) (off : Int) (s : State), s.stroke.state = .holdover →
      (wide = false ∨ off < -2 ∨ 2 < off → exec (.strokeSyncPulse wide off) s = .next s)
      ∧ (wide = true → off = 0 → s.stroke.resync = false →
          (s.stroke.number % 65536 = 0 → exec (.strokeSyncPulse wide off) s = .next s)
          ∧ (s.stroke.number % 65536 ≠ 0 → ∃ t, exec (.strokeSyncPulse wide off) s = .next t
              ∧ t.stroke = { s.stroke with numErr := true } ∧ eventAt t pgStroke 4 = true ∧ t.slots = s.slots ∧ t.scribes = s.scribes))
      ∧ (wide = true → (off = -1 ∨ off = -2) → s.stroke.resync = true → ∃ t, exec (.strokeSyncPulse wide off) s = .next t
          ∧ t.stroke = { s.stroke with resync := false, number := (epochNumber s + 2 ^ 64 - 1) % 2 ^ 64 }
          ∧ t.scribes = s.scribes ∧ t.regs = s.regs))
  ∧ (∀ s : State, s.stroke.state = .locked →
      (∃ t, exec .refclkLoss s = .next t ∧ eventAt t pgStroke 0 = true
        ∧ OnlyEvents { s with stroke := { s.stroke with state := .holdover, refOk := false, holdTicks := 0, missed := 0 } } t)
      ∧ (s.stroke.confirmed = false → 3 ≤ s.stroke.missed → ∃ t, exec .syncLost s = .next t ∧ eventAt t pgStroke 0 = true
        ∧ OnlyEvents { s with stroke := { s.stroke with state := .holdover, syncOk := false, holdTicks := 0, missed := 0 } } t)
      ∧ (s.stroke.confirmed = true ∨ s.stroke.missed < 3 → exec .syncLost s = .next s))
  ∧ (∀ s : State, s.stroke.state ≠ .locked → exec .syncLost s = .next s
      ∧ exec .refclkLoss s = .next { s with stroke := { s.stroke with refOk := false } })
  ∧ (∀ s : State, s.stroke.state = .holdover →
      (∃ t, exec (.holdoverEnd false 0) s = .next t ∧ eventAt t pgStroke 1 = true
        ∧ OnlyEvents { s with stroke := { s.stroke with
            state := .locked, refOk := true, holdTicks := 0, syncOk := true, confirmed := true, missed := 0 } } t)
      ∧ (∀ (wide : Bool) (off : Int), off < -2 ∨ 2 < off → ∃ t, exec (.holdoverEnd wide off) s = .next t
        ∧ eventAt t pgStroke 2 = true
        ∧ OnlyEvents { s with stroke := { s.stroke with state := .freeRun, refOk := true, syncOk := false } } t)
      ∧ (∃ t, exec .holdoverExpired s = .next t ∧ eventAt t pgStroke 2 = true
        ∧ OnlyEvents { s with stroke := { s.stroke with
            state := .freeRun, syncOk := false, holdTicks := max s.stroke.holdTicks (holdMax s) } } t))
  ∧ (∀ s : State, s.stroke.state ≠ .holdover → exec .holdoverExpired s = .next s
      ∧ exec (.holdoverEnd false 0) s = .next { s with stroke := { s.stroke with refOk := true } })

/-- Orders of STROKE.CMD, PHALT and the policy register of a partition (spec/04_stroke_timing.md). -/
def Obligations.StrokeOrdersAct : Prop :=
  ∀ (src : Nat) (s : State),
    let orders : List Instr := [.run src, .stop src, .switchArm src, .switchCancel src, .resync src, .numClr src]
    (canWrite s src pgStroke = false → (∀ i ∈ orders, exec i s = .next s)
      ∧ ∀ p w, exec (.phaltResume src p) s = .next s ∧ exec (.ppolWrite src p w) s = .next s)
    ∧ (canWrite s src pgStroke = true →
      let c := s.setReg pgStroke 0x070 0#32
      let at_ := s.pair pgStroke 0x048 0x04C
      let free := match s.stroke.pend with
        | none => true
        | some (_, _, n) => decide (s.stroke.number + 2 ≤ n)
      let rejected (o : Host.Outcome State Fault Refusal) : Prop := ∃ t, o = .next t ∧ OnlyEvents c t ∧ eventAt t pgStroke 6 = true
      exec (.run src) s = .next (if s.stroke.state = .stopped then { c with stroke := { s.stroke with state := .waitEpoch } } else c)
      ∧ exec (.stop src) s = .next (if s.parts.any (fun x => x.2.plan.isSome) then c
          else if strokesRun s then { c with stroke := { s.stroke with stopPend := true } }
          else { c with stroke := { s.stroke with state := .stopped } })
      ∧ (s.stroke.number + 2 ≤ at_ → free = true → exec (.switchArm src) s = .next { c with stroke := { s.stroke with
          pend := some (max 2500 (min (s.field pgStroke 0x040 0 22) 2500000), clampLayout (s.reg pgStroke 0x044), at_) } })
      ∧ (at_ < s.stroke.number + 2 ∨ free = false → rejected (exec (.switchArm src) s))
      ∧ (free = true → exec (.switchCancel src) s = .next { c with stroke := { s.stroke with pend := none } })
      ∧ (free = false → rejected (exec (.switchCancel src) s))
      ∧ exec (.resync src) s = .next (if strokesRun s then { c with stroke := { s.stroke with resync := true } } else c)
      ∧ (∃ t, exec (.numClr src) s = .next t ∧ JobsOnly { c with stroke := { s.stroke with numErr := false } } t
        ∧ ∀ p j, s.job p = some j → t.job p = some (if j.halted ∧ j.haltCause = 3
            then { j with numHold := false, halted := false, haltCause := 0 } else { j with numHold := false }))
      ∧ (∀ p < 32, ∃ v t, exec (.phaltResume src p) s = .next t ∧ JobsOnly (s.setReg pgStroke (0x118 + 0x20 * p) v) t
        ∧ ∀ q j, s.job q = some j → t.job q = some (if q = p ∧ j.halted ∧ j.haltCause = 1 then { j with resumeReq := true } else j))
      ∧ (∀ p < 32, ∀ w, ∃ t, exec (.ppolWrite src p w) s = .next t
        ∧ JobsOnly (s.setReg pgStroke (0x100 + 0x20 * p) (w &&& 0xFFF7#32)) t
        ∧ ∀ q j, s.job q = some j → t.job q = some (if q = p then { j with auto := false } else j)))

/-- CANCEL, PAUSE, RESUME, PRIORITY and RELEASE as the order registers take them (spec/09_serving.md). -/
def Obligations.OrdersQueueAndCancelsAct : Prop :=
  ∀ (src p : Nat) (d : W64) (s : State),
    let slot := (d.extractLsb' 0 16).toNat
    let gen := (d.extractLsb' 16 16).toNat
    let tag := (d.extractLsb' 41 23).toNat
    let order (op : Nat) : Order :=
      { slot := slot, gen := gen, op := op, mode := (d.extractLsb' 36 2).toNat, prio := (d.extractLsb' 38 3).toNat,
        tag := tag, stroke := s.stroke.number, count := s.stroke.count, isHandle := false }
    let release : Order :=
      { slot := (d.extractLsb' 0 14).toNat, gen := (d.extractLsb' 14 16).toNat, op := 1, mode := 0, prio := 0,
        tag := (d.extractLsb' 32 32).toNat, stroke := s.stroke.number, count := s.stroke.count, isHandle := true }
    let queued (o : Order) : State := s.setPart p { s.part p with orders := (s.part p).orders ++ [o] }
    (canWrite s src (pgReq p) = false → exec (.cancel src p d) s = .next s ∧ exec (.pause src p d) s = .next s
      ∧ exec (.resume src p d) s = .next s ∧ exec (.priority src p d) s = .next s ∧ exec (.release src p d) s = .next s)
    ∧ (canWrite s src (pgReq p) = true → src ≠ p + 1 →
      let c := capture s (pgReq p) 0x078 5 true d src
      exec (.cancel src p d) s = .next c ∧ exec (.pause src p d) s = .next c ∧ exec (.resume src p d) s = .next c
      ∧ exec (.priority src p d) s = .next c ∧ exec (.release src p d) s = .next (capture s (pgReq p) 0x080 5 true d src))
    ∧ (canWrite s src (pgReq p) = true → src = p + 1 → notEntry s p = false →
      ((s.part p).orders.length < 1024 →
        exec (.pause src p d) s = .next (queued (order 2)) ∧ exec (.resume src p d) s = .next (queued (order 3))
        ∧ exec (.priority src p d) s = .next (queued (order 4))
        ∧ (d.extractLsb' 30 2 = 1#2 → exec (.release src p d) s = .next (queued release)))
      ∧ (d.extractLsb' 30 2 ≠ 1#2 → exec (.release src p d) s
          = .next (s.setPart p { s.part p with badOrder := min ((s.part p).badOrder + 1) 65535 }))
      ∧ (1024 ≤ (s.part p).orders.length → ∃ t, exec (.pause src p d) s = .next t ∧ eventAt t (pgReq p) 4 = true
          ∧ OnlyEvents (s.setPart p { s.part p with badOrder := min ((s.part p).badOrder + 1) 65535 }) t)
      ∧ (liveMatch s p slot gen = true → (s.slot slot).cancel = none → ∃ t, exec (.cancel src p d) s = .next t
          ∧ t = { s with slots := t.slots, serve := t.serve, freeCtr := t.freeCtr }
          ∧ t.slot slot = { s.slot slot with
              cancel := some (s.stroke.number, s.stroke.count), cancelTag := tag, copyDone := false, pagesReady := false }
          ∧ (∀ n, n ≠ slot → t.slot n = s.slot n) ∧ t.serve.cancels = min (s.serve.cancels + 1) 65535
          ∧ s.serve.cancelLat ≤ t.serve.cancelLat)
      ∧ ((s.part p).bme = false → (s.part p).cqQueue.length < 4096 →
          (liveMatch s p slot gen = true → (s.slot slot).cancel ≠ none →
            ∃ t, exec (.cancel src p d) s = .next t ∧ answered s t p slot gen tag 3 ∧ t.slots = s.slots)
          ∧ (liveMatch s p slot gen = false → ownSlot (s.part p) slot = true →
              ∃ t, exec (.cancel src p d) s = .next t ∧ t.slots = s.slots ∧ answered s t p slot gen tag
                (match endedMatch (s.slot slot) gen with
                  | none => 2
                  | some (e, _) => if e = 1 ∨ e = 2 ∨ e = 5 then 1 else 3))))

/-- INTAKE fixes the request list of every step; REQUEST_DESCRIPTOR takes, refuses or withdraws a descriptor (spec/09_serving.md, spec/06_program_contract.md). -/
def Obligations.IntakeFixesListsAndTakesDescriptors : Prop :=
  (∀ (reads : List IntakeRead) (s : State), ∃ t, exec (.intake reads) s = .next t
    ∧ t.stroke = s.stroke ∧ t.regs = s.regs ∧ t.arrays = s.arrays ∧ t.remap = s.remap
    ∧ ∀ p j, s.job p = some j →
      (p < 32 → awaitsList s p = true → notEntry s p = false → ∃ k, t.job p = some k ∧ k.listFixed = true ∧ k.ordersDue = false
        ∧ k.inStep = true ∧ k.stepNo = j.stepNo ∧ k.reqList.length ≤ listMax s p
        ∧ (k.reqList.map (·.positions)).sum ≤ posMax s p ∧ (k.reqList.map (·.slot)).Pairwise (· ≤ ·))
      ∧ (awaitsList s p = false → ∃ b, t.job p = some { j with ordersDue := b }))
  ∧ (∀ (p : Nat) (s : State), takes s p = false → ∀ b, exec (.requestDescriptor p b) s = .next s)
  ∧ (∀ (p : Nat) (s : State), takes s p = true →
    let tail := ((s.part p).tail + 1) % 2 ^ 32
    let turned (t : State) (kind : Nat) (code : Nat) : Prop :=
      t.slots = s.slots ∧ t.handles = s.handles ∧ (t.part p).tail = tail ∧ t.serve = s.serve ∧ eventAt t (pgReq p) 0 = true
        ∧ (cqRoom s p = false → ∃ e, (t.part p).cqQueue = (s.part p).cqQueue ++ [e] ∧ e.kind = kind ∧ e.code = code)
    (∃ t, exec (.requestDescriptor p none) s = .next t ∧ turned t 2 10)
    ∧ ∀ b : List Byte,
      let d := decodeDesc b
      (d.withdraw ≠ 0 → ∃ t, exec (.requestDescriptor p (some b)) s = .next t ∧ turned t 3 0)
      ∧ (d.withdraw = 0 → refusal s p d ≠ 0 → ∃ t, exec (.requestDescriptor p (some b)) s = .next t ∧ turned t 2 (refusal s p d))
      ∧ (d.withdraw = 0 → refusal s p d = 0 → ∃ t n, exec (.requestDescriptor p (some b)) s = .next t
          ∧ ownSlot (s.part p) n = true ∧ (s.slot n).state = .free
          ∧ (t.slot n).state = (if d.kind = 2 then .building else .prefill) ∧ (t.slot n).gen = ((s.slot n).gen + 1) % 65536
          ∧ (t.slot n).part = p ∧ (t.slot n).desc = d ∧ (t.slot n).priority = d.priority ∧ (t.slot n).prefixLen = descPrefix s p d
          ∧ (t.slot n).promptDone = 0 ∧ (t.slot n).nextSeq = 0 ∧ (t.slot n).cancel = none ∧ (t.slot n).frozen = false
          ∧ (∀ m, m ≠ n → t.slot m = s.slot m) ∧ (t.part p).tail = tail
          ∧ t.serve.intakes = (s.serve.intakes + 1) % 2 ^ 32 ∧ eventAt t (pgReq p) 0 = true))

/-- Park copies, pages of a resumed request, times to live and the consumer index of the completion ring (spec/09_serving.md). -/
def Obligations.ParkedRequestsAndLifetimes : Prop :=
  (∀ (n : Nat) (s : State),
    let x := s.slot n
    let p := x.part
    let ks := parkedKeys s p n
    let base := x.desc.parkAddr
    (x.state = .parking → x.cancel = none → hostOpen (s.part p) = true → s.HostOk → ∃ t, exec (.parkCopyDone n) s = .next t
      ∧ t = { s.setSlot n { x with copyDone := true, parked := ks } with hostOut := t.hostOut } ∧ t.HostOk
      ∧ (∀ a, a < base ∨ base + 262144 * ks.length ≤ a → Mem.read t.hostOut a = Mem.read s.hostOut a)
      ∧ ∀ i key c k g, ks[i]? = some (key, c) → Tbl.get? x.kvMap key = some k → Tbl.get? (s.part p).pages k = some g →
          Mem.wf g.data = true → ∀ a < 262144, Mem.read t.hostOut (base + 262144 * i + a)
            = if (Tbl.get? c (a / 4096)).isSome then Mem.read g.data a else 0#8)
    ∧ ((x.state ≠ .parking ∨ x.cancel ≠ none) → exec (.parkCopyDone n) s = .next s)
    ∧ (∀ ok, x.state = .resuming → x.cancel = none → x.pagesReady = false → x.pagesHeld = true → x.readFailed = false →
      (x.resumeCtrl = 2 → exec (.resumeReady n ok) s = .next (s.setSlot n { x with pagesReady := true, parked := [] }))
      ∧ (x.resumeCtrl = 3 → hostOpen (s.part p) = true → ok = true → ∃ t, exec (.resumeReady n ok) s = .next t
          ∧ t.slot n = { x with pagesReady := true, parked := [] } ∧ (∀ m, m ≠ n → t.slot m = s.slot m)
          ∧ t = { s with slots := t.slots, parts := t.parts }
          ∧ ∀ i key c k, x.parked[i]? = some (key, c) → Tbl.get? x.kvMap key = some k →
              (∀ i' key' c', x.parked[i']? = some (key', c') → Tbl.getD x.kvMap key' 0 = k → i' = i) →
              Tbl.get? (t.part p).pages k = some { part := p, owner := .priv n, pos := c,
                                                   data := Mem.slice s.hostOut (base + 262144 * i) 262144 })
      ∧ (x.resumeCtrl = 3 → hostOpen (s.part p) = true → ok = false →
          exec (.resumeReady n ok) s = .next (s.setSlot n { x with readFailed := true }))
      ∧ (x.resumeCtrl ≠ 2 → hostOpen (s.part p) = false → exec (.resumeReady n ok) s = .next s))
    ∧ ((x.state ≠ .resuming ∨ x.cancel ≠ none ∨ x.pagesHeld = false) → ∀ ok, exec (.resumeReady n ok) s = .next s)
    ∧ (x.state = .parked → x.expired = false →
        (∀ o ∈ (s.part p).orders, o.isHandle = false → o.op = 3 → o.slot = n → o.gen = x.gen → False) →
        ∃ t, exec (.parkTtlExpired n) s = .next t ∧ OnlyEvents (s.setSlot n { x with expired := true }) t
          ∧ eventAt t (pgReq p) 6 = true)
    ∧ ((x.state ≠ .parked ∨ x.expired = true) → exec (.parkTtlExpired n) s = .next s))
  ∧ (∀ (h : Nat) (s : State),
    let x := s.handle h
    (x.state = .sealed → x.users = 0 → x.ttl ≠ 0 → x.expired = false → ∃ t, exec (.handleTtlExpired h) s = .next t
      ∧ OnlyEvents (s.setHandle h { x with expired := true }) t ∧ eventAt t (pgReq x.part) 7 = true)
    ∧ ((x.state ≠ .sealed ∨ x.users ≠ 0 ∨ x.ttl = 0 ∨ x.expired = true) → exec (.handleTtlExpired h) s = .next s))
  ∧ (∀ (src p : Nat) (w : W32) (s : State), p < 32 → canWrite s src (pgReq p) = true →
    let r := s.setReg (pgReq p) 0x06C w
    let x := s.part p
    (x.cqQueue = [] → exec (.cqConsWrite src p w) s = .next r)
    ∧ (hostOpen x = false → exec (.cqConsWrite src p w) s = .next r)
    ∧ (∀ c, x.cqQueue = [c] → hostOpen x = true → cqRoom r p = true → ∃ t, exec (.cqConsWrite src p w) s = .next t
      ∧ (t.part p).cqQueue = [] ∧ (t.part p).cqProd = (x.cqProd + 1) % 2 ^ 32
      ∧ t.hostOut = Mem.writeBytes s.hostOut (addrPair s (pgReq p) 0x060 + 32 * (x.cqProd % cqLen s p))
          (completionBytes (cqLen s p) x.cqProd c)
      ∧ t.slots = s.slots ∧ t.regs = r.regs))

/-- SAMPLE_COMPARE, TAINT_REPORT_WRITE, TAINT_CONS_WRITE and THAW (spec/10_integrity.md). -/
def Obligations.SampledExecutionAndTaintReports : Prop :=
  (∀ (id : Nat) (found : List W64) (s : State), s.integ.checks.find? (fun x => x.id == id) = none →
      exec (.sampleCompare id found) s = .next s)
  ∧ (∀ (id : Nat) (x : Check) (found : List W64) (s : State), s.integ.checks.find? (fun y => y.id == id) = some x →
    let c := s.pcore x.pcore
    let done : State := { s with integ := { s.integ with checks := s.integ.checks.filter (fun y => y.id != x.id) } }
    let right := x.traces.map (·.digest)
    let another (d : Nat × List W64) (k : Nat) : State := { s with integ := { s.integ with
      checks := s.integ.checks.map (fun y => if y.id = x.id then { y with first := some d, checker := k } else y) } }
    let others (k : Nat) : List Nat := (freeCheckers s x.part).filter (fun c => c != k)
    (x.first = none → found = right → c.taintOpen = none → exec (.sampleCompare id found) s
        = .next (done.setPcore x.pcore { c with lastSample := x.stroke, sampleRuns := c.sampleRuns - 1 }))
    ∧ (x.first = none → found ≠ right → (∀ k ks, others x.checker = k :: ks →
          exec (.sampleCompare id found) s = .next (another (x.checker, found) k))
        ∧ (others x.checker = [] → exec (.sampleCompare id found) s = .next s))
    ∧ (∀ k ds, x.first = some (k, ds) → found ≠ right → found ≠ ds →
        (∀ m ms, others k = m :: ms → exec (.sampleCompare id found) s = .next (another (k, ds) m))
        ∧ (others k = [] → exec (.sampleCompare id found) s = .next s))
    ∧ (∀ k ds, x.first = some (k, ds) → found = right → k ≠ x.pcore → c.taintOpen = none → (s.pcore k).kind = .spare →
        ∃ t, exec (.sampleCompare id found) s = .next t ∧ (t.pcore k).kind = .fenced ∧ eventAt t pgInteg 11 = true
          ∧ eventAt t pgMesh 3 = true ∧ t.pcore x.pcore = { c with lastSample := x.stroke, sampleRuns := c.sampleRuns - 1 }
          ∧ t.integ.checks = done.integ.checks ∧ t.slots = s.slots ∧ t.scribes = s.scribes)
    ∧ (∀ k ds, x.first = some (k, ds) → found ≠ right → found = ds → c.taintOpen = none → s.integ.taints.length < 16 →
        ∃ t r, exec (.sampleCompare id found) s = .next t ∧ t = { done with pcores := t.pcores, integ := t.integ }
          ∧ (t.pcore x.pcore).sampleRuns = 4 ∧ (t.pcore x.pcore).taintOpen = some (s.integ.taintSeq, r.first)
          ∧ t.integ.taints = s.integ.taints ++ [r] ∧ t.integ.taintSeq = (s.integ.taintSeq + 1) % 2 ^ 32
          ∧ r.seq = s.integ.taintSeq ∧ r.source = 1 ∧ r.result = 0 ∧ r.part = x.part ∧ r.pcore = x.pcore ∧ r.array = 0xFFFF
          ∧ r.last = s.stroke.number ∧ c.lastSample ≤ r.first))
  ∧ (∀ s : State, s.integ.taints = [] ∨ taintLen s = 0 ∨ s.pf.bme = false → exec .taintReportWrite s = .next s)
  ∧ (∀ (r : Taint) (rest : List Taint) (s : State), s.integ.taints = r :: rest → taintLen s ≠ 0 → s.pf.bme = true →
    let n := min r.slots.length ((taintRoom s - 64) / 8)
    let bs := taintBytes r n
    let pos := s.integ.taintProd % taintLen s
    (taintRoom s < 64 → ∃ t, exec .taintReportWrite s = .next t ∧ OnlyEvents s t ∧ eventAt t pgInteg 9 = true)
    ∧ (64 ≤ taintRoom s → pos + bs.length ≤ taintLen s → ∃ t, exec .taintReportWrite s = .next t
        ∧ OnlyEvents { s with
            hostOut := Mem.writeBytes s.hostOut (s.pair pgInteg 0x070 0x074 / 64 * 64 + pos) bs
            integ := { s.integ with taints := rest, taintProd := (s.integ.taintProd + bs.length) % 2 ^ 32 } } t
        ∧ eventAt t pgInteg 4 = true ∧ eventAt t (pgFunc r.part) 2 = true))
  ∧ (∀ (src : Nat) (w : W32) (s : State),
      exec (.taintConsWrite src w) s = .next (if canWrite s src pgInteg then s.setReg pgInteg 0x080 w else s)
      ∧ (canWrite s src pgInteg = false → exec (.thaw src) s = .next s)
      ∧ (canWrite s src pgInteg = true → ∃ t, exec (.thaw src) s = .next t
          ∧ t = { s.setReg pgInteg 0x088 0#32 with slots := t.slots }
          ∧ ∀ n, t.slot n = if n ∈ slotsOf s (s.field pgInteg 0x084 0 5) then { s.slot n with frozen := false } else s.slot n))

/-- PROOF_PART, PROOF_PART_JUDGE, PROOF_DEADLINE and PROOF_NEXT (spec/10_integrity.md). -/
def Obligations.ProofRoundsStartPartsAndJudge : Prop :=
  (∀ s : State, proofEn s = false → exec .proofDeadline s = .next s
      ∧ (s.integ.retries = [] → (∀ r, s.integ.proof = some r → r.failed = []) → exec .proofPart s = .next s))
  ∧ (∀ (r : ProofRun) (s : State), s.integ.proof = some r → proofEn s = true → provable s r.pcore = true →
      inReplay s r.pcore = false →
    (∀ n v, r.busy = none → r.failed = [] → (∀ k ∈ r.left, hasProof s r.pcore k = true) → r.left.find? (partRuns s r) = some n →
        proverFor s (proofPart s r.pcore) r.pcore [r.pcore] = some v → ∃ t, exec .proofPart s = .next t
      ∧ t = { s with integ := t.integ, arrays := t.arrays }
      ∧ t.integ.proof = some { r with
          busy := some n, half := false, prover := v, seed := s.integ.proofSeed
          range := min 11 (s.field pgInteg 0x044 24 4), result := none }
      ∧ t.integ.proofSeed = s.integ.proofSeed + 1
      ∧ (∀ k, t.array k = if n ≠ 32 ∧ k = 32 * r.pcore + n
          then { s.array k with
            evCnt := ((s.array k).evCnt + 1) % 2 ^ 32
            eval := some (partEval s r.pcore n s.integ.proofSeed (min 11 (s.field pgInteg 0x044 24 4))) }
          else s.array k))
    ∧ (∀ n, r.busy = some n → r.half = false → provable s r.prover = true → idleCore s r.prover = true →
        fitsStroke s r.prover 3072 = true →
        exec .proofPart s = .next { s with integ := { s.integ with proof := some { r with half := true } } })
    ∧ (∀ n, r.busy = some n → r.half = true → provable s r.prover = true → exec .proofPart s = .next s))
  ∧ (∀ (n : Nat) (own other : W64) (s : State), s.integ.proof = none → exec (.proofPartJudge n own other) s = .next s)
  ∧ (∀ (r : ProofRun) (n : Nat) (own other : W64) (s : State), s.integ.proof = some r → r.busy = some n →
    (∀ m, m ≠ n → exec (.proofPartJudge m own other) s = .next s) ∧
    let pass := partPasses s r n own other
    let free := s.integ.provers.filter (fun x => x.2 != proofKey)
    (partComplete r n = false → exec (.proofPartJudge n own other) s = .next s)
    ∧ (partComplete r n = true → r.failed = [] → pass = true → r.left.erase n ≠ [] →
        exec (.proofPartJudge n own other) s = .next { s with integ := { s.integ with
          proof := some { r with busy := none, half := false, left := r.left.erase n }, provers := free } })
    ∧ (partComplete r n = true → r.failed = [] → pass = false →
        exec (.proofPartJudge n own other) s = .next { s with integ := { s.integ with
          proof := some { r with busy := none, half := false, failed := [n], before := r.prover }, provers := free } })
    ∧ (partComplete r n = true → r.failed = [n] → pass = false → n < 32 → (s.pcore r.pcore).kind = .spare → r.left.erase n ≠ [] →
        s.integ.taints.length < 16 → ∃ t x, exec (.proofPartJudge n own other) s = .next t
          ∧ t.integ.proofFails = min (s.integ.proofFails + 1) 255 ∧ eventAt t pgInteg 5 = true ∧ eventAt t pgInteg 2 = true
          ∧ t.integ.taints = s.integ.taints ++ [x] ∧ x.source = 2 ∧ x.result = 2 ∧ x.pcore = r.pcore ∧ x.array = n
          ∧ x.first = (s.pcore r.pcore).lastProof + 1 ∧ x.last = s.stroke.number
          ∧ (t.array (32 * r.pcore + n)).broken = true ∧ (t.array (32 * r.pcore + n)).fenced = true
          ∧ t.integ.proof = some { r with busy := none, half := false, left := r.left.erase n, failed := [] }))
  ∧ (∀ (r : ProofRun) (s : State), s.integ.proof = some r → proofEn s = true → atBoundary s = true → r.left ≠ [] → r.subst = none →
      inReplay s r.pcore = false →
    (s.stroke.number < proofDue s r → exec .proofDeadline s = .next s)
    ∧ (proofDue s r ≤ s.stroke.number →
      (∀ c, r.forced < 4 → proverFor s (proofPart s r.pcore) r.pcore [r.pcore] = some c → ∃ t, exec .proofDeadline s = .next t
        ∧ OnlyEvents { s with integ := { s.integ with
            proof := some { r with forced := r.forced + 1, subst := some c }, provers := s.integ.provers ++ [(c, substKey)] } } t
        ∧ eventAt t pgInteg 8 = true)
      ∧ (r.forced < 4 → proverFor s (proofPart s r.pcore) r.pcore [r.pcore] = none → exec .proofDeadline s
          = .next { s with integ := { s.integ with proof := some { r with forced := r.forced + 1 } } })
      ∧ (r.forced = 4 → ∃ t, exec .proofDeadline s = .next t ∧ eventAt t pgInteg 6 = true
        ∧ OnlyEvents { s with integ := { s.integ with
            proof := some { r with forced := 5 }, proofLate := min (s.integ.proofLate + 1) 255 } } t)
      ∧ (5 ≤ r.forced → exec .proofDeadline s = .next s)))
  ∧ (∀ s : State, s.integ.proof = none ∨ atBoundary s = false → exec .proofDeadline s = .next s)
  ∧ (∀ (src : Nat) (w : W32) (s : State),
    let c := (w.extractLsb' 0 11).toNat
    let kept := s.setReg pgInteg 0x048 (w &&& 0x7FF#32)
    (canWrite s src pgInteg = false → exec (.proofNext src w) s = .next s)
    ∧ (canWrite s src pgInteg = true →
        (w.getLsbD 31 = true → c ≤ 1151 → (s.pcore c).kind ≠ .fenced → exec (.proofNext src w) s
          = .next { kept with integ := { s.integ with proofNext := s.integ.proofNext ++ [c] } })
        ∧ ((w.getLsbD 31 = false ∨ 1151 < c ∨ (s.pcore c).kind = .fenced) → exec (.proofNext src w) s = .next kept)))

/-- LOAD, RELOAD, DISCARD NEXT, PROGRAM, ROLL, REFRESH and ERASE as WEIGHT.CMD takes them (spec/11_weight_residency.md). -/
def Obligations.WeightOrdersAct : Prop :=
  ∀ (src : Nat) (d : W32) (s : State), canWrite s src pgWeight = true →
    let p := (d.extractLsb' 0 5).toNat
    let x := s.part p
    let q := s.weight.queue
    let taken := weightTaken s src d
    let ended := weightEnded s src d
    (armed s src pgWeight = false → ∀ i, i ∈ [(Instr.imageLoad src d, 1), (.reload src d, 2), (.discardNext src d, 3), (.program src d, 4),
        (.roll src d, 5), (.refresh src d, 6), (.erase src d, 7)] →
      exec i.1 s = .next (capture s pgWeight 0x04C 1 true
        (((d &&& ~~~(0x1E0#32)) ||| BitVec.ofNat 32 (i.2 * 32)).zeroExtend 64) src))
    ∧ (armed s src pgWeight = true →
      (partExists s p = true → s.weight.busy = none →
        exec (.reload src d) s = .next { taken 2 with weight := { (taken 2).weight with
          busy := some (p, true, s.field pgWeight 0x048 0 24), abandoned := false } }
        ∧ (changeUsesNext x = false → exec (.imageLoad src d) s = .next { taken 1 with weight := { (taken 1).weight with
          busy := some (p, false, s.field pgWeight 0x048 0 24), abandoned := false } }))
      ∧ (s.weight.busy ≠ none → exec (.reload src d) s = .next (ended 2 11) ∧ exec (.imageLoad src d) s = .next (ended 1 11))
      ∧ (partExists s p = false → exec (.discardNext src d) s = .next (ended 3 7) ∧ exec (.program src d) s = .next (ended 4 7)
        ∧ exec (.roll src d) s = .next (ended 5 7) ∧ exec (.refresh src d) s = .next (ended 6 7)
        ∧ exec (.erase src d) s = .next (ended 7 7)
        ∧ (s.weight.busy = none → exec (.imageLoad src d) s = .next (ended 1 7)))
      ∧ (partExists s p = true → slotBeingRead s p false = false → slotBeingRead s p true = false →
        (changeUsesNext x = false → exec (.discardNext src d) s = .next ((ended 3 0).setPart p { x with nextImage := none }))
        ∧ (∀ im, x.nextImage = some im → x.plan = none → partChanging x = false → ∃ t, exec (.program src d) s = .next t
          ∧ t = { (ended 4 0).setPart p { x with change := .offline } with
                  weight := { (ended 4 0).weight with queue := t.weight.queue } }
          ∧ (∀ y ∈ q, (y.started = true ∨ y.part ≠ p) → y ∈ t.weight.queue)
          ∧ ∀ k ∈ ownArrays s p,
              (∀ tile, placedTile s im k = some tile → newProg k .offline p tile true ∈ t.weight.queue)
              ∧ (placedTile s im k = none → (s.array k).resState = .resident → newProg k .erase p 0xFFFFFFFF false ∈ t.weight.queue))
        ∧ (x.nextImage = none ∨ x.plan ≠ none ∨ partChanging x = true → exec (.program src d) s = .next (ended 4 7))
        ∧ (∀ im, x.nextImage = some im → x.plan ≠ none → partChanging x = false →
          let at_ := s.pair pgWeight 0x054 0x058
          let same := x.curImage.map (fun c => (c.ntile, c.dir)) = some (im.ntile, im.dir)
          (same → s.stroke.number + 2 ≤ at_ → exec (.roll src d) s
            = .next ((ended 5 0).setPart p { x with change := .rollPending at_, noAdapter := true }))
          ∧ (¬ same → exec (.roll src d) s = .next (ended 5 9))
          ∧ (same → at_ < s.stroke.number + 2 → exec (.roll src d) s = .next (ended 5 10)))
        ∧ (∃ t, exec (.refresh src d) s = .next t
          ∧ t = { ended 6 0 with weight := { (ended 6 0).weight with queue := t.weight.queue, dueCtr := t.weight.dueCtr } }
          ∧ s.weight.dueCtr ≤ t.weight.dueCtr
          ∧ ∃ ns : List Nat, ns.length = (refreshKeys s p d).length ∧ t.weight.queue = q ++ List.zipWith
              (fun k n => ({ newProg k .refresh p (s.array k).tile false with dueNo := n } : Prog)) (refreshKeys s p d) ns
            ∧ ∀ (i k n : Nat), (refreshKeys s p d)[i]? = some k → ns[i]? = some n →
                if (s.array k).due then n = (s.array k).dueNo else s.weight.dueCtr < n)
        ∧ (x.plan = none → partChanging x = false → exec (.erase src d) s
            = .next { (ended 7 0).setPart p { x with
                        curImage := none, nextImage := none, edition := 0, edDigest := 0#256, change := .none,
                        rollWait := false, rollRaised := false, noAdapter := false } with
                      weight := { (ended 7 0).weight with
                        queue := q.filter (fun y => y.started || y.part != p)
                          ++ (ownArrays s p).map (fun k => newProg k .erase p 0xFFFFFFFF false) } })
        ∧ (x.plan ≠ none ∨ partChanging x = true → exec (.erase src d) s = .next (ended 7 7))))

/-- The end of a load, write slots from start to end, and the verification of a resident array (spec/11_weight_residency.md). -/
def Obligations.LoadsAndWriteSlotsEnd : Prop :=
  (∀ (img : Option (List Byte)) (s : State), s.weight.busy = none → exec (.imageDone img) s = .next s)
  ∧ (∀ (p kib : Nat) (rel : Bool) (s : State), s.weight.busy = some (p, rel, kib) →
    let x := s.part p
    let done (t : State) (u : State) (r : Nat) : Prop := eventAt t pgWeight 0 = true
      ∧ OnlyEvents { u with weight := { s.weight with busy := none, abandoned := false, result := r } } t
    (s.weight.abandoned = true ∨ (partExists s p = false ∧ rel = false) →
        ∀ img, ∃ t, exec (.imageDone img) s = .next t ∧ done t s 7)
    ∧ (s.weight.abandoned = false → partExists s p = true →
      (rel = false → ∃ t, exec (.imageDone none) s = .next t ∧ done t (s.setPart p { x with nextImage := none }) 6)
      ∧ (rel = true → ∃ t, exec (.imageDone none) s = .next t ∧ done t s 6)
      ∧ ∀ b : List Byte,
        let c := imgCheck b ((kib * 1024 + 4095) / 4096 * 4096) (some x.cfg.lcount)
        (rel = false → c ≠ 0 → ∃ t, exec (.imageDone (some b)) s = .next t ∧ done t (s.setPart p { x with nextImage := none }) c)
        ∧ (rel = false → c = 0 → imageMib (some (imageOf b)) + imageMib x.curImage ≤ x.cfg.image →
          ∃ t im, exec (.imageDone (some b)) s = .next t ∧ done t (s.setPart p { x with nextImage := some im }) 0
            ∧ im.edition = numAt b 8 8 ∧ im.length = b.length ∧ im.lost = [])
        ∧ (rel = true → c = 0 → x.edition ≠ 0 → x.edition ≠ numAt b 8 8 →
          ∃ t, exec (.imageDone (some b)) s = .next t ∧ done t s 8)))
  ∧ (∀ s : State, chooseProg s = none → exec .writeSlotStart s = .next s)
  ∧ (∀ (q : Prog) (rep : Bool) (im : Image) (s : State), chooseProg s = some (q, rep) → progImage s q = some im →
    let k := progKey q
    ∃ t, exec .writeSlotStart s = .next t
      ∧ (t.array k).resState = .programming ∧ (t.array k).edition = im.edition ∧ (t.array k).tile = progTile s q
      ∧ (t.array k).cells = programmedCells (im.code (progTile s q)) ∧ (t.array k).resPart = q.part
      ∧ (t.array k).fenced = true ∧ (t.array k).verified = false ∧ (t.array k).writeCnt = min ((s.array k).writeCnt + 1) 65535
      ∧ ((s.array k).writeCnt = 10000 → eventAt t pgWeight 4 = true)
      ∧ t.weight.queue = markStarted q rep s.weight.queue ∧ (∀ n, n ≠ k → t.array n = s.array n)
      ∧ t.pcores = s.pcores ∧ t.slots = s.slots ∧ t.scribes = s.scribes)
  ∧ (∀ (k : Nat) (ok : Bool) (s : State), s.weight.queue.find? (fun q => q.started && progKey q == k) = none →
      exec (.writeSlotDone k ok) s = .next s)
  ∧ (∀ (k : Nat) (q : Prog) (s : State), s.weight.queue.find? (fun y => y.started && progKey y == k) = some q →
    let left := s.weight.queue.filter (fun y => !(y.started && progKey y == k))
    (q.why = .erase → ∀ ok, exec (.writeSlotDone k ok) s = .next { s.setArray k { s.array k with resState := .empty, due := false }
        with weight := { s.weight with queue := left } })
    ∧ (q.why = .refresh → (s.part q.part).change = .none → ∃ t, exec (.writeSlotDone k true) s = .next t
        ∧ (t.array k).resState = .resident ∧ (t.array k).verified = true ∧ (t.array k).offs = 0 ∧ (t.array k).trackValid = false
        ∧ (t.array k).cells = (s.array k).cells ∧ (t.array k).writeCnt = (s.array k).writeCnt
        ∧ t.weight.queue = left ∧ t.weight.refreshDone = min (s.weight.refreshDone + 1) 65535
        ∧ (∀ n, n ≠ k → t.array n = s.array n) ∧ t.parts = s.parts ∧ t.pcores = s.pcores)
    ∧ (q.why ≠ .erase → q.tries = 0 → ∃ t, exec (.writeSlotDone k false) s = .next t
        ∧ t.array k = { s.array k with writeCnt := min ((s.array k).writeCnt + 1) 65535 } ∧ (∀ n, n ≠ k → t.array n = s.array n)
        ∧ t.weight.queue = s.weight.queue.map (fun y => if y.started && progKey y == k then { y with tries := 1 } else y))
    ∧ (q.why = .refresh → q.tries ≠ 0 → (s.part q.part).change = .none → (s.pcore (k / 32)).kind = .spare →
        ∃ t, exec (.writeSlotDone k false) s = .next t ∧ t.array k = { s.array k with resState := .failed }
        ∧ t.weight.queue = left ∧ eventAt t pgWeight 3 = true ∧ eventAt t pgInteg 2 = true
        ∧ t.integ.permanents = min (s.integ.permanents + 1) 65535))
  ∧ (∀ (k : Nat) (s : State),
    let a := s.array k
    let x := s.part a.resPart
    let fails (ok : Bool) : Prop := ∃ t, exec (.arrayVerifyDone k ok) s = .next t ∧ eventAt t pgWeight 5 = true ∧ OnlyEvents { s with weight :=
          { s.weight with queue := s.weight.queue ++ [newProg k .verify a.resPart a.tile false] } } t
    ((a.resState = .resident ∨ a.resState = .programming) → a.verified = false → x.curImage ≠ none →
        (∀ q ∈ s.weight.queue, progKey q ≠ k) →
      (a.resState = .resident → a.recOk = true → a.edition = x.edition →
        (tileLost s a.resPart (some a.tile) = true → ∀ ok, exec (.arrayVerifyDone k ok) s = .next s)
        ∧ (tileLost s a.resPart (some a.tile) = false →
            exec (.arrayVerifyDone k true) s = .next (s.setArray k { a with verified := true }) ∧ fails false))
      ∧ (a.resState = .programming ∨ a.recOk = false ∨ a.edition ≠ x.edition → ∀ ok, fails ok))
    ∧ ((a.resState = .empty ∨ a.resState = .failed ∨ a.verified = true ∨ x.curImage = none) →
        ∀ ok, exec (.arrayVerifyDone k ok) s = .next s))

/-- OFFLINE_CHANGE_COMPLETE and ROLL_SWITCH: when an edition switches and what it changes (spec/11_weight_residency.md, spec/09_serving.md). -/
def Obligations.EditionSwitchesTakeEffect : Prop :=
  (∀ (p : Nat) (im : Image) (s : State), (s.part p).nextImage = some im →
    let x := s.part p
    let refused (o : Host.Outcome State Fault Refusal) : Prop := ∃ t, o = .next t ∧ eventAt t pgWeight 3 = true
      ∧ (t.part p).nextImage = none ∧ (t.part p).change = .none ∧ (t.part p).curImage = x.curImage ∧ (t.part p).edition = x.edition
      ∧ t.arrays = s.arrays ∧ t.slots = s.slots ∧ t.handles = s.handles
    let switched (o : Host.Outcome State Fault Refusal) (t : State) : Prop := o = .next t
      ∧ (t.part p).curImage = some im ∧ (t.part p).nextImage = none ∧ (t.part p).edition = im.edition
      ∧ (t.part p).edDigest = im.digest ∧ (t.part p).noAdapter = false
      ∧ (t.part p).adapters = x.adapters.filter (fun a => a.2.edition == im.edition)
      ∧ (∀ h, t.handle h = if h ∈ handlesOf s p ∧ (s.handle h).state = .sealed then { s.handle h with state := .stale } else s.handle h)
      ∧ t.slots = s.slots ∧ t.hostOut = s.hostOut ∧ t.stroke = s.stroke
    (x.change = .offline → im.lost = [] → (∀ q ∈ s.weight.queue, offlineWork p q = false) →
        ∃ t, switched (exec (.offlineChangeComplete p) s) t ∧ (t.part p).change = .none ∧ eventAt t pgWeight 1 = true
          ∧ t.arrays = s.arrays)
    ∧ (x.change = .offline → im.lost = [] → (∃ q ∈ s.weight.queue, offlineWork p q = true) →
        exec (.offlineChangeComplete p) s = .next s)
    ∧ (x.change = .offline → im.lost ≠ [] → refused (exec (.offlineChangeComplete p) s))
    ∧ (x.change ≠ .offline → exec (.offlineChangeComplete p) s = .next s)
    ∧ (∀ n, x.change = .rollPending n →
        (s.stroke.number < n ∨ stepCommitted s p = false → exec (.rollSwitch p) s = .next s)
        ∧ (n ≤ s.stroke.number → stepCommitted s p = true →
          (im.lost ≠ [] → refused (exec (.rollSwitch p) s))
          ∧ (im.lost = [] → adapterNamed s p = true → x.rollRaised = false → ∃ t, exec (.rollSwitch p) s = .next t
              ∧ OnlyEvents (s.setPart p { x with rollWait := true, rollRaised := true }) t ∧ eventAt t pgWeight 7 = true)
          ∧ (im.lost = [] → adapterNamed s p = true → x.rollRaised = true →
              exec (.rollSwitch p) s = .next (s.setPart p { x with rollWait := true }))
          ∧ (im.lost = [] → adapterNamed s p = false → switchDecided s p = false →
              exec (.rollSwitch p) s = .next (s.setPart p { x with rollWait := false }))
          ∧ (im.lost = [] → adapterNamed s p = false → switchDecided s p = true → ∃ t, switched (exec (.rollSwitch p) s) t
              ∧ (∀ k ∈ ownArrays s p, placedTile s im k ≠ none → (t.array k).fenced = true
                  ∧ ∃ q ∈ t.weight.queue, progKey q = k ∧ q.why = .rolling ∧ q.part = p)
              ∧ (∀ k, k ∉ ownArrays s p → t.array k = s.array k))))
    ∧ (x.change = .none → exec (.rollSwitch p) s = .next s))
  ∧ (∀ (p : Nat) (s : State), (s.part p).nextImage = none →
      exec (.offlineChangeComplete p) s = .next s ∧ exec (.rollSwitch p) s = .next s)

/-- CAL_ORDER, CALIBRATION_EVALUATION, CALIBRATION_DONE and TRIM_ADAPTER_TRAINING (spec/11_weight_residency.md, spec/02_memory_arrays.md). -/
def Obligations.CalibrationsAndTrimTraining : Prop :=
  (∀ (src : Nat) (d : W32) (s : State), canWrite s src pgCal = true → d.extractLsb' 16 2 = 0#2 →
    let c := (d.extractLsb' 0 11).toNat
    let k := 32 * c + (d.extractLsb' 11 5).toNat
    let taken := (disarm s src pgCal).setReg pgCal 0x040 (d &&& 0x7FFFFF#32)
    let refused (why : Nat) : Prop := ∃ t, exec (.calOrder src d) s = .next t ∧ eventAt t pgCal 1 = true
      ∧ OnlyEvents { taken with cal := { s.cal with
          failed := min (s.cal.failed + 1) 65535, lastPcore := c, lastArray := k % 32, lastPass := false,
          lastOutRange := false, lastWhy := why } } t
    (armed s src pgCal = false → exec (.calOrder src d) s = .next (capture s pgCal 0x040 1 true (d.zeroExtend 64) src))
    ∧ (armed s src pgCal = true →
      (s.cal.busy = true → refused 2)
      ∧ (s.cal.busy = false → (1151 < c ∨ (s.pcore c).kind ≠ .active) → refused 3)
      ∧ (s.cal.busy = false → c ≤ 1151 → (s.pcore c).kind = .active → calReady s k = true → exec (.calOrder src d) s
          = .next { taken with cal := { s.cal with busy := true, left := [k], evals := 0 } })))
  ∧ (∀ (k : Nat) (s : State), (s.cal.busy = false ∨ s.cal.left.head? ≠ some k) →
      exec (.calibrationEvaluation k) s = .next s ∧ ∀ x y, exec (.calibrationDone k x y) s = .next s)
  ∧ (∀ (k : Nat) (ks : List Nat) (s : State), s.cal.busy = true → s.cal.left = k :: ks →
    let a := s.array k
    (s.cal.evals < 128 → idleArray s k = true → tileLost s a.resPart (some a.tile) = false →
      exec (.calibrationEvaluation k) s = .next (({ s with cal := { s.cal with evals := s.cal.evals + 1 } } : State).setArray k
        { a with evCnt := (a.evCnt + 1) % 2 ^ 32, eval := some (calEval s k s.cal.evals) }))
    ∧ ((s.cal.evals = 128 ∨ idleArray s k = false) → exec (.calibrationEvaluation k) s = .next s)
    ∧ (s.cal.evals < 128 ∨ a.eval ≠ none → ∀ x y, exec (.calibrationDone k x y) s = .next s)
    ∧ (s.cal.evals = 128 → a.eval = none → calReady s k = true → ∀ x y : List Int, x.length = 1054 → y.length = 1054 →
      let after (pass out : Bool) (why : Nat) : Cal := { s.cal with
        left := ks, busy := !ks.isEmpty, evals := 0,
        passed := if pass then min (s.cal.passed + 1) 65535 else s.cal.passed,
        failed := if pass then s.cal.failed else min (s.cal.failed + 1) 65535,
        lastPcore := k / 32 % 2048, lastArray := k % 32, lastPass := pass, lastOutRange := out, lastWhy := why }
      (trimsFit x = true → trimsFit y = true → trimsAgree x y = true → ∃ t, exec (.calibrationDone k x y) s = .next t
        ∧ t.cal = after true false 0 ∧ eventAt t pgCal 0 = true
        ∧ (∃ z, (z = x ∨ z = y) ∧ t.array k = { a with trimStored := true, trimNew := true, nextTrims := z })
        ∧ (∀ n, n ≠ k → t.array n = s.array n) ∧ (t.pcore (k / 32)).tCal = (coreTemp s (k / 32) % 4096).toNat
        ∧ (t.pcore (k / 32)).tCalRec = (t.pcore (k / 32)).tCal)
      ∧ (trimsFit x = false ∨ trimsFit y = false → ∃ t, exec (.calibrationDone k x y) s = .next t
        ∧ OnlyEvents { s with cal := after false true 0 } t ∧ eventAt t pgCal 1 = true)
      ∧ (trimsFit x = true → trimsFit y = true → trimsAgree x y = false → ∃ t, exec (.calibrationDone k x y) s = .next t
        ∧ OnlyEvents { s with cal := after false false 4 } t ∧ eventAt t pgCal 1 = true)))
  ∧ (∀ (p k : Nat) (s : State),
    let tr := s.trim p k
    let quiet (t : State) : Prop := t.arrays = s.arrays ∧ t.slots = s.slots ∧ t.scribes = s.scribes ∧ t.stroke = s.stroke
    ((planProjs (s.part p))[k]? = none ∨ tr.en = false → ∀ rank w, exec (.trimAdapterTraining p k rank w) s = .next s)
    ∧ (∀ pr, (planProjs (s.part p))[k]? = some pr → tr.en = true →
      (∀ (rank : Nat) (c : Capture) im, (s.part p).curImage = some im → tr.captures.length < 64 → c.x.length = pr.nIn → c.y.length = pr.nOut →
          poolPlace s (s.part p) (4 * (pr.nIn + pr.nOut)) ≠ none →
          ∃ t z ts, exec (.trimAdapterTraining p k rank (.capture c)) s = .next t ∧ quiet t
            ∧ t.trim p k = { tr with captures := tr.captures ++ [z], tiles := ts }
            ∧ z.x = c.x ∧ z.y = c.y ∧ z.slices = c.slices ∧ z.target = (List.range pr.nOut).map (fairOutput im c))
      ∧ (∀ (rank : Nat) (c : Capture), 64 ≤ tr.captures.length ∨ c.x.length ≠ pr.nIn ∨ c.y.length ≠ pr.nOut →
          exec (.trimAdapterTraining p k rank (.capture c)) s = .next s)
      ∧ ∀ (rank : Nat) (eta : W32) (held : List Nat),
        let fits := rank ≠ 0 ∧ rank ≤ min 16 tr.rankMax ∧ held.length = 8 ∧ held.Nodup ∧ ∀ i ∈ held, i < tr.captures.length
        (¬ fits → exec (.trimAdapterTraining p k rank (.train eta held)) s = .next s)
        ∧ (fits → ∃ t, exec (.trimAdapterTraining p k rank (.train eta held)) s = .next t ∧ quiet t
            ∧ (t.trim p k).captures = [] ∧ (t.trim p k).version = tr.version
            ∧ (((t.trim p k).last = 2 ∧ (t.trim p k).rejected = min (tr.rejected + 1) 255 ∧ (t.trim p k).pending = tr.pending
                ∧ (t.trim p k).masters = tr.masters)
              ∨ ((t.trim p k).last = 1 ∧ (t.trim p k).active = true ∧ (t.trim p k).accepted = min (tr.accepted + 1) 255
                ∧ eventAt t pgCal 3 = true ∧ ∃ off v m, (t.trim p k).pending = some (off, v) ∧ v.rank = rank ∧ v.nIn = pr.nIn
                  ∧ v.nOut = pr.nOut ∧ (t.trim p k).masters = some m ∧ m.rank = rank)))))

/-- ADAPTER_LOAD, ADAPTER_UNLOAD and ADAPTER_LOAD_DONE (spec/03_number_formats.md). -/
def Obligations.TenantAdaptersLoadAndUnload : Prop :=
  (∀ (src p : Nat) (d : W32) (s : State), p < 32 →
    (canWrite s src (pgAdapt p) = false → exec (.adapterLoad src p d) s = .next s ∧ exec (.adapterUnload src p d) s = .next s)
    ∧ (canWrite s src (pgAdapt p) = true →
      let n := (d.extractLsb' 0 10).toNat
      let kept (op : Nat) := s.setReg (pgAdapt p) 0x048 (((d &&& ~~~(0xC00#32)) ||| BitVec.ofNat 32 (op * 1024)) &&& 0xFFF#32)
      let addr := s.pair (pgAdapt p) 0x040 0x044
      ((s.part p).adBusy = none →
        exec (.adapterLoad src p d) s = .next ((kept 1).setPart p { s.part p with adBusy := some (1, n, addr) })
        ∧ exec (.adapterUnload src p d) s = .next ((kept 2).setPart p { s.part p with adBusy := some (2, n, addr) }))
      ∧ ((s.part p).adBusy ≠ none → exec (.adapterLoad src p d) s = .next (kept 1)
        ∧ exec (.adapterUnload src p d) s = .next (kept 2))))
  ∧ (∀ (p : Nat) (img : Option (List Byte)) (s : State), (s.part p).adBusy = none → exec (.adapterLoadDone p img) s = .next s)
  ∧ (∀ (p n addr : Nat) (s : State),
    let x := s.part p
    let ended (o : Host.Outcome State Fault Refusal) (r : Nat) : Prop := ∃ t, o = .next t ∧ eventAt t (pgAdapt p) 0 = true
      ∧ OnlyEvents (s.setPart p { x with adBusy := none, adResult := r, adLast := n }) t
    (x.adBusy = some (1, n, addr) →
      (adapterAt x n ≠ none → ∀ img, ended (exec (.adapterLoadDone p img) s) 5)
      ∧ (adapterAt x n = none → ended (exec (.adapterLoadDone p none) s) 6
        ∧ ∀ b : List Byte,
          let fits := aiForm b && (x.plan.isNone || aiProjs b (planProjs x) true)
          (aiCrcOk b = false → ended (exec (.adapterLoadDone p (some b)) s) 1)
          ∧ (aiCrcOk b = true → fits = false → ended (exec (.adapterLoadDone p (some b)) s) 2)
          ∧ (aiCrcOk b = true → fits = true → numAt b 8 8 ≠ x.edition → ended (exec (.adapterLoadDone p (some b)) s) 3)
          ∧ (aiCrcOk b = true → fits = true → numAt b 8 8 = x.edition → x.plan = none → poolPlace s x b.length ≠ none →
            ∃ t a, exec (.adapterLoadDone p (some b)) s = .next t ∧ eventAt t (pgAdapt p) 0 = true
              ∧ Tbl.get? (t.part p).adaptersNew n = some a ∧ a.image = b ∧ a.edition = x.edition ∧ a.visible = false ∧ a.gone = false
              ∧ (∀ m, m ≠ n → Tbl.get? (t.part p).adaptersNew m = Tbl.get? x.adaptersNew m) ∧ (t.part p).adapters = x.adapters
              ∧ (t.part p).adBusy = none ∧ (t.part p).adResult = 0 ∧ (t.part p).adLast = n ∧ t.slots = s.slots)))
    ∧ (x.adBusy = some (2, n, addr) → ∀ img,
      (adapterUsed s p n = true → ended (exec (.adapterLoadDone p img) s) 5)
      ∧ (adapterUsed s p n = false → ∃ t, exec (.adapterLoadDone p img) s = .next t ∧ eventAt t (pgAdapt p) 0 = true
        ∧ adapterAt (t.part p) n = none ∧ (∀ m, m ≠ n → Tbl.get? (t.part p).adapters m = Tbl.get? x.adapters m)
        ∧ (t.part p).adBusy = none ∧ (t.part p).adResult = 0 ∧ t.slots = s.slots)))

/-- PLAN_LOAD, PLAN_LOAD_DONE and PLAN_UNLOAD (spec/06_program_contract.md). -/
def Obligations.PlansLoadAndUnload : Prop :=
  (∀ (src p : Nat) (d : W32) (s : State), p < 32 →
    (canWrite s src (pgPlan p) = false → exec (.planLoad src p d) s = .next s ∧ exec (.planUnload src p d) s = .next s)
    ∧ (canWrite s src (pgPlan p) = true →
      let x := s.part p
      let word (op : Nat) : W32 := (d &&& ~~~(0x3#32)) ||| BitVec.ofNat 32 op
      let kept (op : Nat) := s.setReg (pgPlan p) 0x04C (word op &&& 0xF#32)
      (x.pstat.busy ≠ 0 → exec (.planLoad src p d) s = .next (kept 1) ∧ exec (.planUnload src p d) s = .next (kept 2))
      ∧ (x.pstat.busy = 0 → x.plan = none →
        exec (.planLoad src p d) s = .next ((kept 1).setPart p { x with pstat := { PlanStat.reset with
          busy := 1, cmd := word 1, addr := s.pair (pgPlan p) 0x040 0x044, len := s.field (pgPlan p) 0x048 0 29,
          startAt := s.pair (pgPlan p) 0x050 0x054, jobId := (s.reg (pgPlan p) 0x058).toNat } })
        ∧ (slotsOf s p = [] → ∃ t, exec (.planUnload src p d) s = .next t ∧ eventAt t (pgPlan p) 5 = true
          ∧ OnlyEvents ((kept 2).setPart p { x with pstat := { x.pstat with result := 0 } }) t))
      ∧ (x.pstat.busy = 0 → x.plan ≠ none →
        (∃ t, exec (.planLoad src p d) s = .next t ∧ eventAt t (pgPlan p) 1 = true
          ∧ OnlyEvents ((kept 1).setPart p { x with pstat := { x.pstat with result := 9 } }) t)
        ∧ (slotsOf s p = [] → ∀ j, x.job = some j → exec (.planUnload src p d) s
            = .next ((kept 2).setPart p { x with pstat := { x.pstat with busy := 2 }, job := some { j with unloading := true } })))
      ∧ (x.pstat.busy = 0 → slotsOf s p ≠ [] →
          exec (.planUnload src p d) s = .next ((kept 2).setPart p { x with pstat := { x.pstat with result := 9 } }))))
  ∧ (∀ (p : Nat) (img : Option (List Byte)) (s : State), (s.part p).pstat.busy ≠ 1 → exec (.planLoadDone p img) s = .next s)
  ∧ (∀ (p : Nat) (s : State), (s.part p).pstat.busy = 1 →
    let x := s.part p
    let refused (o : Host.Outcome State Fault Refusal) (r : Nat) : Prop := ∃ t diff, o = .next t ∧ eventAt t (pgPlan p) 1 = true
      ∧ OnlyEvents (s.setPart p { x with pstat := { x.pstat with busy := 0, result := r, ttdiff := diff } }) t
    refused (exec (.planLoadDone p none) s) 10
    ∧ ∀ b : List Byte,
      (piForm b x.pstat.len = false → refused (exec (.planLoadDone p (some b)) s) 1)
      ∧ (piForm b x.pstat.len = true → piEncoding b = false → refused (exec (.planLoadDone p (some b)) s) 2)
      ∧ (∀ r, piForm b x.pstat.len = true → piEncoding b = true → planChecks s p b = (r, none) →
          refused (exec (.planLoadDone p (some b)) s) r)
      ∧ (∀ r e, piForm b x.pstat.len = true → piEncoding b = true → planChecks s p b = (r, some e) → x.adapters = [] → x.adaptersNew = [] →
          ∃ t pl j, exec (.planLoadDone p (some b)) s = .next t ∧ eventAt t (pgPlan p) 0 = true
            ∧ (t.part p).plan = some pl ∧ (t.part p).job = some j ∧ (t.part p).trims = [] ∧ (t.part p).pstat.busy = 0
            ∧ (t.part p).pstat.result = 0 ∧ (t.part p).pstat.ncore = biNcore b e ∧ (t.part p).pstat.entryIdx = e
            ∧ pl.lcores = ownCores s p ∧ pl.ncore = biNcore b e ∧ pl.startAt = x.pstat.startAt ∧ pl.edition = piEdition b
            ∧ j.started = false ∧ j.stepNo = 0 ∧ j.inStep = false
            ∧ (∀ k l, (ownCores s p)[k]? = some l → (ownCores s p).Nodup →
                (t.scribe l).part = p ∧ (t.scribe l).pindex = k ∧ (t.scribe l).pc = 0 ∧ (t.scribe l).mode = .idle)
            ∧ (∀ l, l ∉ ownCores s p → t.scribe l = s.scribe l) ∧ t.slots = s.slots ∧ t.arrays = s.arrays ∧ t.stroke = s.stroke))

/-- Of the ports other than `n`, at most what waits to be sent has changed (R311). -/
def otherPorts (s t : State) (n : Nat) : Prop :=
  ∀ m, m ≠ n → t.port m = { s.port m with tx := (t.port m).tx, sent := (t.port m).sent }

/-- Link blocks, lost ports, training, retraining and PCTRL of a link port (spec/12_torus_and_pairs.md). -/
def Obligations.LinkPortsFollowBlocksAndTraining : Prop :=
  (∀ (n corrected : Nat) (bs : List Byte) (s : State),
    let x := s.port n
    let got (o : Host.Outcome State Fault Refusal) (y : Port) : Prop := o = .next (s.setPort n y)
    let i : Instr := .linkBlockReceived n { bytes := bs, corrected := corrected }
    let y0 : Port := { x with fec := min (x.fec + corrected) 0xFFFFFFFF }
    ((12 ≤ n ∨ x.state ≠ .up ∨ s.pins.linkIdle = true) → exec i s = .next s)
    ∧ (n < 12 → x.state = .up → s.pins.linkIdle = false →
      (blockCrcOk bs = false → got (exec i s) (sendBlock { y0 with crcFail := min (x.crcFail + 1) 65535, nakPend := true }))
      ∧ (blockCrcOk bs = true → blockSeq bs ≠ (x.rxSeq + 1) % 4096 → got (exec i s) (sendBlock { y0 with nakPend := true }))
      ∧ (blockCrcOk bs = true → blockSeq bs = (x.rxSeq + 1) % 4096 →
        let replays := if blockAck bs = x.ackSeq then x.replays else 0
        let y := acceptBlock { y0 with rxSeq := blockSeq bs, nakPend := false, ackSeq := blockAck bs, replays := replays } bs
        (blockNak bs = false → got (exec i s) (sendBlock y))
        ∧ (blockNak bs = true → replays < 3 →
            got (exec i s) { y with replays := replays + 1, replay := min (x.replay + 1) 65535 })
        ∧ (blockNak bs = true → 3 ≤ replays → ∃ t, exec i s = .next t ∧ (t.port n).state = .down
          ∧ (t.port n).downs = min (x.downs + 1) 65535 ∧ eventAt t (pgLink n) 1 = true ∧ otherPorts s t n))))
  ∧ (∀ (x : Port) (bs : List Byte),
    let y := acceptBlock x bs
    let z := sendBlock x
    y = { x with rx := y.rx, credits := y.credits }
    ∧ (∀ vc < 6, Tbl.getD y.rx vc [] = Tbl.getD x.rx vc [] ++ (blockSlots bs).filter (fun e => e.vc == vc))
    ∧ (∀ vc < 6, Tbl.getD y.credits vc 0 = Tbl.getD x.credits vc 0 + if blockCreditVc bs = vc then blockCredits bs else 0)
    ∧ z = { x with txSeq := (x.txSeq + 1) % 4096, tx := z.tx, credits := z.credits, owed := z.owed, sent := z.sent }
    ∧ z.sent.length ≤ 64
    ∧ ∃ b, z.sent.getLast? = some b ∧ b.seq = (x.txSeq + 1) % 4096 ∧ b.ack = x.rxSeq ∧ b.nak = x.nakPend ∧ b.slots.length ≤ 16)
  ∧ (∀ (n : Nat) (los : Bool) (s : State),
    ((12 ≤ n ∨ (s.port n).state ≠ .up) → exec (.linkPortDown n los) s = .next s)
    ∧ (n < 12 → (s.port n).state = .up → ∃ t, exec (.linkPortDown n los) s = .next t
      ∧ t.port n = { s.port n with
          state := .down, los := los, downs := min ((s.port n).downs + 1) 65535, nakPend := false, replays := 0,
          tx := (t.port n).tx, sent := (t.port n).sent }
      ∧ otherPorts s t n ∧ eventAt t (pgLink n) 1 = true
      ∧ t.link.rtVersion = (s.link.rtVersion + 1) % 65536 ∧ t.scribes = s.scribes ∧ t.slots = s.slots ∧ t.arrays = s.arrays))
  ∧ (∀ (n : Nat) (r : Option Training) (s : State), (12 ≤ n ∨ (s.port n).state ≠ .training) →
      exec (.portTrainingDone n r) s = .next s)
  ∧ (∀ (n : Nat) (s : State), n < 12 → (s.port n).state = .training →
    exec (.portTrainingDone n none) s = .next (s.setPort n { s.port n with state := .down })
    ∧ ∀ r : Training,
      (trainingFits s n r = false → ∃ t, exec (.portTrainingDone n (some r)) s = .next t ∧ eventAt t (pgLink n) 2 = true
        ∧ OnlyEvents (s.setPort n { s.port n with
            peer := r.coord % 8192, peerPort := r.peerPort % 16, los := false, state := .wiringErr }) t)
      ∧ (trainingFits s n r = true → ∃ t, exec (.portTrainingDone n (some r)) s = .next t ∧ eventAt t (pgLink n) 0 = true
        ∧ (t.port n).state = .up ∧ (t.port n).peer = r.coord % 8192 ∧ (t.port n).peerPort = r.peerPort % 16
        ∧ (t.port n).replays = 0 ∧ (t.port n).nakPend = false ∧ (t.port n).txSeq = (t.port n).ackSeq ∧ otherPorts s t n
        ∧ t.link.rtVersion = (s.link.rtVersion + 1) % 65536 ∧ r.coord ∉ t.link.lostDevices))
  ∧ (∀ (n : Nat) (s : State), n < 12 → s.pins.linkIdle = false →
    let x := s.port n
    let trained := s.setPort n { x with state := .training, trains := min (x.trains + 1) 65535 }
    (x.state = .down → exec (.autoRetrain n) s = .next trained)
    ∧ (x.state ≠ .down → exec (.autoRetrain n) s = .next s)
    ∧ ∀ src, (canWrite s src (pgLink n) = false → exec (.retrain src n) s = .next s)
      ∧ (canWrite s src (pgLink n) = true → (x.state = .down ∨ x.state = .wiringErr ∨ x.state = .training) →
          exec (.retrain src n) s = .next trained)
      ∧ (canWrite s src (pgLink n) = true → x.state = .disabled → exec (.retrain src n) s = .next s)
      ∧ (canWrite s src (pgLink n) = true → x.state = .up → ∃ t, exec (.retrain src n) s = .next t
          ∧ (t.port n).state = .training ∧ (t.port n).downs = min (x.downs + 1) 65535 ∧ eventAt t (pgLink n) 1 = true))
  ∧ (∀ (src n : Nat) (w : W32) (s : State), n < 12 →
    let x := s.port n
    let kept := s.setReg (pgLink n) 0x048 (w &&& 1#32)
    (canWrite s src (pgLink n) = false → exec (.portDisable src n w) s = .next s)
    ∧ (canWrite s src (pgLink n) = true → w.getLsbD 1 = false →
      (w.getLsbD 0 = true → (x.state = .down ∨ x.state = .wiringErr ∨ x.state = .training) →
        exec (.portDisable src n w) s = .next (kept.setPort n { x with state := .disabled }))
      ∧ (w.getLsbD 0 = true → x.state = .up → ∃ t, exec (.portDisable src n w) s = .next t
        ∧ (t.port n).state = .disabled ∧ eventAt t (pgLink n) 1 = true ∧ otherPorts s t n)
      ∧ (w.getLsbD 0 = false → x.state = .disabled → exec (.portDisable src n w) s
        = .next (kept.setPort n { x with state := .down, downs := min (x.downs + 1) 65535 }))
      ∧ (w.getLsbD 0 = false → x.state ≠ .disabled → exec (.portDisable src n w) s = .next kept)))

/-- What `execPacketReceived` takes from a channel, and how it goes on (R302 to R304, R313). -/
def packetTaken (n vc : Nat) (h : BitVec 512) (data : List (BitVec 512)) (rest : List LinkSlot) (s : State) : Prop :=
  let x := s.port n
  let out := exec (.packetReceived n vc) s
  let s1 : State := s.setPort n { x with
    rx := Tbl.set x.rx vc rest, owed := Tbl.set x.owed vc (Tbl.getD x.owed vc 0 + ((Tbl.getD x.rx vc []).length - rest.length)) }
  let noJob : State := { s1 with link := { s.link with nojob := min (s.link.nojob + 1) 65535 } }
  let bad : State := { s1 with link := { s.link with badcrc := min (s.link.badcrc + 1) 65535 } }
  let typ := hdrType h
  (hdrDst h = s.link.coord →
    ((typ = 0 ∨ 12 ≤ typ) → out = .next noJob)
    ∧ (1 ≤ typ → typ ≤ 3 → partOfJob s (hdrJob h) = none → out = .next noJob)
    ∧ (4 ≤ typ → typ < 12 → partOfJob s (hdrJob h) = none → out = .next (if pcrcOk h data then s1 else bad))
    ∧ (∀ q j, 1 ≤ typ → typ < 12 → partOfJob s (hdrJob h) = some q → s.job q = some j →
        (typ ≤ 3 → stepTagOk j (hdrStepTag h) = false → out = .next noJob)
        ∧ ((4 ≤ typ ∨ stepTagOk j (hdrStepTag h) = true) →
            (pcrcOk h data = true → out = .next s1)
            ∧ (pcrcOk h data = false → j.inStep = false → out = .next bad)
            ∧ (pcrcOk h data = false → j.inStep = true → j.replaying = false → j.suspects = [] → j.fault = none →
                ∃ t u, out = .next t ∧ eventAt t pgInteg 0 = true ∧ t.job q = some { j with suspects := [u] }
                  ∧ u.check = 15 ∧ u.reqs = .all ∧ t.link.badcrc = min (s.link.badcrc + 1) 65535))))
  ∧ (hdrDst h ≠ s.link.coord →
    let way := packetExit s1 h (if x.dir < 6 then some (oppositeDir x.dir) else none)
    (way = none → out = .next s1)
    ∧ (∀ m detoured upper, way = some (m, detoured, upper) → vcOf typ upper < 6 →
        let y := s1.port m
        let v := vcOf typ upper
        out = .next (s1.setPort m { y with
          tx := Tbl.set y.tx v (Tbl.getD y.tx v [] ++ packetSlots v (withHop h (hdrHops h + 1) detoured upper) data) })))

/-- PACKET_RECEIVED, ROUTE_ANNOUNCEMENT, COORD_WRITE, GROW_ARM and GROWTH (spec/12_torus_and_pairs.md). -/
def Obligations.PacketsRoutesCoordinatesAndGrowth : Prop :=
  (∀ (n vc : Nat) (s : State), headPacket (Tbl.getD (s.port n).rx vc []) = none → exec (.packetReceived n vc) s = .next s)
  ∧ (∀ (n vc : Nat) (h : BitVec 512) (data : List (BitVec 512)) (rest : List LinkSlot) (s : State),
      headPacket (Tbl.getD (s.port n).rx vc []) = some (h, data, rest) → packetTaken n vc h data rest s)
  ∧ (∀ (id : Nat) (s : State),
    (id ∈ s.link.announced → ∀ d, exec (.routeAnnouncement id d) s = .next s)
    ∧ (id ∉ s.link.announced → s.pins.linkIdle = false →
      (∃ t, exec (.routeAnnouncement id none) s = .next t ∧ eventAt t (pgLink 0) 8 = true
        ∧ OnlyEvents { s with
            ports := t.ports, freeCtr := s.freeCtr + 1
            link := { s.link with
              announced := s.link.announced ++ [id], rtVersion := (s.link.rtVersion + 1) % 65536,
              rtUpdates := min (s.link.rtUpdates + 1) 65535 } } t
        ∧ otherPorts s t 12
        ∧ ∀ n < 12, portServes s n = true → ∃ y ∈ Tbl.getD (t.port n).tx 0 [], y.header = true ∧ hdrType y.bits = 10)
      ∧ (∀ d, ∃ t, exec (.routeAnnouncement id (some d)) s = .next t ∧ eventAt t (pgLink 0) 8 = true
        ∧ d ∈ t.link.lostDevices ∧ t.link.announced = s.link.announced ++ [id] ∧ otherPorts s t 12
        ∧ t.link.rtVersion = (s.link.rtVersion + 1) % 65536 ∧ t.slots = s.slots ∧ t.arrays = s.arrays)))
  ∧ (∀ (src : Nat) (c : W32) (b : Option W32) (s : State),
    let k := (c.extractLsb' 16 7).toNat
    let profile := (c.extractLsb' 24 2).toNat
    let idle := ∀ n < 12, (s.port n).state = .down ∨ (s.port n).state = .disabled
    ((src ≠ 33 ∨ sidebandReach s (pgLink 0) = false ∨ ¬ idle ∨ k = 0 ∨ 64 < k) → exec (.coordWrite src c b) s = .next s)
    ∧ (src = 33 → sidebandReach s (pgLink 0) = true → idle → 1 ≤ k → k ≤ 64 → ∃ t, exec (.coordWrite src c b) s = .next t
      ∧ t = { s with link := t.link, ports := t.ports }
      ∧ t.link = { s.link with
          coord := (c.extractLsb' 0 13).toNat, racks := k, valid := true, profile := profile,
          buddy := t.link.buddy, buddyValid := t.link.buddyValid }
      ∧ (∀ w, b = some w → profile = 3 → t.link.buddy = (w.extractLsb' 0 13).toNat ∧ t.link.buddyValid = true)
      ∧ ((b = none ∨ profile ≠ 3) → t.link.buddy = s.link.buddy ∧ t.link.buddyValid = s.link.buddyValid)
      ∧ (∀ n < 12, t.port n = { s.port n with dir := portDir profile n })))
  ∧ (∀ (src r at_ : Nat) (s : State),
    let l := { s.link with racksNext := r % 128, growAt := at_ % 2 ^ 64 }
    ((src ≠ 33 ∨ sidebandReach s (pgLink 0) = false) → exec (.growArm src r at_) s = .next s)
    ∧ (src = 33 → sidebandReach s (pgLink 0) = true →
      (spansX s = false → s.stroke.number + 2 ≤ at_ % 2 ^ 64 →
        exec (.growArm src r at_) s = .next { s with link := { l with growArm := true } })
      ∧ (spansX s = true ∨ at_ % 2 ^ 64 < s.stroke.number + 2 → ∃ t, exec (.growArm src r at_) s = .next t
        ∧ OnlyEvents { s with link := { l with growArm := false } } t ∧ eventAt t (pgLink 0) 17 = true)))
  ∧ (∀ s : State, (s.link.growArm = true → s.link.growAt ≤ s.stroke.number → ∃ t, exec .growth s = .next t
        ∧ OnlyEvents { s with link := { s.link with racks := s.link.racksNext, growArm := false } } t ∧ eventAt t (pgLink 0) 16 = true)
      ∧ (s.link.growArm = false ∨ s.stroke.number < s.link.growAt → exec .growth s = .next s))

/-- Heartbeats, the loss of the partner, mirror data and job control messages (spec/12_torus_and_pairs.md, spec/10_integrity.md). -/
def Obligations.BuddyPairsAndJobControl : Prop :=
  (∀ s : State, (s.pins.linkIdle = true → exec .heartbeatSend s = .next s)
    ∧ (s.pins.linkIdle = false → ∃ t, exec .heartbeatSend s = .next t ∧ t.link.hbSent = s.link.hbSent + 1
      ∧ t = { s with link := { s.link with hbSent := s.link.hbSent + 1 }, parts := t.parts, ports := t.ports, freeCtr := t.freeCtr }
      ∧ (∀ n, t.port n = { s.port n with tx := (t.port n).tx })
      ∧ (s.link.buddyValid = true → ∀ n ∈ portsOf s 6, portServes s n = true →
          ∃ y ∈ Tbl.getD (t.port n).tx 0 [], y.header = true ∧ hdrType y.bits = 7 ∧ hdrDst y.bits = s.link.buddy % 65536)
      ∧ ∀ p x, Tbl.get? s.parts p = some x →
          Tbl.get? t.parts p = some { x with pair := { x.pair with hbAge := min (x.pair.hbAge + 1) 4095 } }))
  ∧ (∀ (p n : Nat) (torus : Bool) (q : BuddyTell) (s : State),
    let r := (s.part p).pair
    let heard := setPair s p (fun y => { y with
      hbAge := 0, peer := some q, peerEdition := if n = s.stroke.number then q.edition else y.peerEdition })
    ((s.part p).state = .none ∨ (torus = true ∧ torusUp s = false) ∨ (torus = false ∧ buddyUp s = false) →
        exec (.heartbeatReceived p torus n q) s = .next s)
    ∧ ((s.part p).state ≠ .none → buddyUp s = true → ∃ t, exec (.heartbeatReceived p false n q) s = .next t
        ∧ (t.part p).pair.hbAge = 0 ∧ (t.part p).pair.peer = some q
        ∧ (t.part p).pair.peerEdition = (if n = s.stroke.number then q.edition else r.peerEdition) ∧ t.slots = s.slots ∧ t.scribes = s.scribes ∧ t.ports = s.ports)
    ∧ ((s.part p).state ≠ .none → torusUp s = true → (r.state = .solo ∨ r.state = .isolated) → pairReady heard p = true →
        ∃ t, exec (.heartbeatReceived p true n q) s = .next t ∧ (t.part p).pair.state = .suspended ∧ eventAt t (pgLink 0) 12 = true))
  ∧ (∀ (p : Nat) (s : State),
    let r := (s.part p).pair
    let late := 10 * pairGrace s p
    (r.hbAge < late → exec (.partnerLost p) s = .next s)
    ∧ (late ≤ r.hbAge → r.state = .solo → ∃ t, exec (.partnerLost p) s = .next t ∧ eventAt t (pgLink 0) 13 = true
        ∧ OnlyEvents (s.setPart p { s.part p with pair := { r with state := .lost, adoptDue := true, peer := none } }) t)
    ∧ (late ≤ r.hbAge → (r.state = .sync ∨ r.state = .suspended ∨ r.state = .unpaired) →
        exec (.partnerLost p) s = .next (s.setPart p { s.part p with pair := { r with
          state := .unpaired, mirror := [], held := [], caughtUp := false, adoptDue := false, peerDecision := false,
          peer := none } }))
    ∧ (late ≤ r.hbAge → (r.state = .paired ∨ r.state = .isolated ∨ r.state = .lost) → exec (.partnerLost p) s = .next s))
  ∧ (∀ (p : Nat) (staged : Bool) (m : MirrorMsg) (s : State),
    let r := (s.part p).pair
    let held := { r with held := r.held ++ [m] }
    let fits := mirrorPages r + (heldPages held).length ≤ 4096 * mirrorGib s p
    ((r.state ≠ .sync ∧ r.state ≠ .paired) ∨ buddyUp s = false →
        exec (.mirrorData p staged m) s = .next s ∧ ∀ k, exec (.mirrorAck p k) s = .next s)
    ∧ ((r.state = .sync ∨ r.state = .paired) → buddyUp s = true →
      (fits → staged = true → exec (.mirrorData p staged m) s = .next (s.setPart p { s.part p with pair := held }))
      ∧ (fits → staged = false → exec (.mirrorData p staged m) s = .next (s.setPart p { s.part p with pair := applyMirror s p r m }))
      ∧ (¬ fits → ∃ t, exec (.mirrorData p staged m) s = .next t ∧ OnlyEvents s t ∧ eventAt t (pgLink 0) 15 = true)
      ∧ exec (.mirrorAck p 0) s = .next (s.setPart p { s.part p with pair := { r with sentAcked := true } })
      ∧ exec (.mirrorAck p 1) s = .next (s.setPart p { s.part p with pair := { r with decisionAcked := true } })
      ∧ exec (.mirrorAck p 2) s = .next (s.setPart p { s.part p with pair := { r with caughtUp := true } })))
  ∧ (∀ (p : Nat) (m : JobMsg) (s : State), s.job p = none → exec (.jobControlMessage p m) s = .next s)
  ∧ (∀ (p : Nat) (j : Job) (s : State), s.job p = some j →
    exec (.jobControlMessage p .resetDone) s = .next (s.setJob p { j with peersDue := false })
    ∧ (∀ ok items, j.replaying = true →
        exec (.jobControlMessage p (.returned ok items)) s = .next (s.setJob p { j with returned := some (ok, items) }))
    ∧ (∀ es sp gs ps,
        (pairedNow s p = true → sameEdition (s.part p) = true → exec (.jobControlMessage p (.replay es sp gs ps)) s
          = .next (s.setJob p { j with inserted := some { list := es, special := sp, grants := gs, payloads := ps } }))
        ∧ (pairedNow s p = false ∨ sameEdition (s.part p) = false → exec (.jobControlMessage p (.replay es sp gs ps)) s = .next s))
    ∧ (∀ x : TokenMsg, notEntry s p = true → ownSlot (s.part p) x.slot = true → (s.slot x.slot).state ≠ .free →
        (s.slot x.slot).gen = x.gen → exec (.jobControlMessage p (.tokens [x])) s
          = .next (s.setSlot x.slot { s.slot x.slot with lastToken := x.token, nextSeq := x.seq + 1 }))
    ∧ (∀ x : TaintMsg, (s.part p).pair.state ≠ .unpaired → s.integ.taints.length < 16 →
        ∃ r, exec (.jobControlMessage p (.taint x)) s = .next { s with integ := { s.integ with taints := s.integ.taints ++ [r] } }
          ∧ r.seq = x.seq ∧ r.source = x.source ∧ r.result = x.result ∧ r.part = p ∧ r.mirrored = true ∧ r.first = x.first
          ∧ r.last = x.last ∧ r.slots = x.slots)
    ∧ (∀ n gen, notEntry s p = true → ownSlot (s.part p) n = true → (s.slot n).state ≠ .free → (s.slot n).gen = gen →
        (s.slot n).cancel = none → exec (.jobControlMessage p (.cancel n gen)) s
          = .next (s.setSlot n { s.slot n with cancel := some (s.stroke.number, s.stroke.count) }))
    ∧ (∀ n, notEntry s p = true → ownSlot (s.part p) n = true → (s.slot n).state ≠ .free → (s.slot n).handle = none →
        ∃ t, exec (.jobControlMessage p (.freed [n])) s = .next t ∧ (t.slot n).state = .free ∧ (t.slot n).gen = (s.slot n).gen
          ∧ (t.slot n).kvMap = [] ∧ (∀ k, k ≠ n → t.slot k = s.slot k) ∧ t.hostOut = s.hostOut)
    ∧ (multiDevice j = true → ∃ t, exec (.jobControlMessage p .progFault) s = .next t
        ∧ (∃ k, t.job p = some k ∧ k.halted = true ∧ k.haltCause = 4 ∧ k.inStep = false ∧ k.items = [])
        ∧ eventAt t pgStroke 11 = true ∧ eventAt t (pgFunc p) 4 = true ∧ t.slots = s.slots
        ∧ ∀ pl, (s.part p).plan = some pl → ∀ l ∈ pl.lcores, (t.scribe l).mode = .stopped))

/-- Resets of functions, Bus Master Enable, MSI-X vectors and the release of held intake (spec/13_host_and_partitions.md). -/
def Obligations.FunctionResetsAndMessages : Prop :=
  (∀ (p : Nat) (s : State), p < 32 → vfOn s p = true →
    let x := s.part p
    (x.rst ≠ none → exec (.vfFlr p) s = .next s)
    ∧ (x.rst = none → x.state = .none → exec (.vfFlr p) s = .next (s.setPart p { x with bme := false, msixMask := [], msixPend := [] }))
    ∧ (x.rst = none → x.state = .ready → ∃ t, exec (.vfFlr p) s = .next t
      ∧ (t.part p).rst = some { kind := 1, discard := false, keepVf := false, bmeAtPoint := x.bme, termsDone := false }
      ∧ (t.part p).state = .resetting ∧ (t.part p).rstLast = 1 ∧ (t.part p).msixPend = [] ∧ (t.part p).adBusy = none
      ∧ (t.part p).plan = x.plan ∧ t.slots = s.slots ∧ t.handles = s.handles ∧ t.hostOut = s.hostOut
      ∧ (∀ q, q ≠ p → t.part q = s.part q)
      ∧ fwupRuns t p = false ∧ (fwupRuns s p = true → (fwupOf t p).standby = none ∧ (fwupOf t p).active = (fwupOf s p).active)
      ∧ (∀ pl j, x.plan = some pl → x.job = some j → (∃ k, t.job p = some k ∧ k.inStep = false ∧ k.items = [] ∧ k.hold = none
            ∧ k.halted = false ∧ k.stepNo = j.stepNo ∧ k.started = j.started)
          ∧ ∀ l ∈ pl.lcores, (t.scribe l).pc = 0 ∧ (t.scribe l).mode = .idle ∧ (t.scribe l).sram = (s.scribe l).sram)))
  ∧ (∀ (p : Nat) (s : State), vfOn s p = false → exec (.vfFlr p) s = .next s)
  ∧ (∀ (p : Nat) (s : State), strokesRun s = true →
    ((s.part p).rst = none → exec (.flrComplete p) s = .next s)
    ∧ (∀ r, (s.part p).rst = some r → (r.termsDone = false → exec (.flrComplete p) s = .next s)
      ∧ (r.termsDone = true → ∃ t, exec (.flrComplete p) s = .next t ∧ eventAt t (pgFunc p) 8 = true ∧ eventAt t pgPart 2 = true
        ∧ (t.part p).rst = none ∧ (t.part p).state = .ready ∧ (t.part p).bme = ((s.part p).bme && r.keepVf)
        ∧ (t.part p).plan = (s.part p).plan ∧ t.slots = s.slots ∧ t.scribes = s.scribes)))
  ∧ (∀ s : State, ∃ t, exec .pfFlr s = .next t ∧ t.pf = Pf.reset ∧ t.slots = s.slots ∧ t.hostOut = s.hostOut
      ∧ (s.bring.busy = true → t.bring.busy = false ∧ t.bring.code = 7 ∧ t.bring.lastDone = s.bring.lastDone
          ∧ t.bring.doneMap = s.bring.doneMap)
      ∧ t.sec.reqs = s.sec.reqs.filter (fun r => r.mc) ∧ ((∃ r ∈ s.sec.reqs, r.mc = false) → t.sec.result = 9)
      ∧ ∀ p < 32, (s.part p).state = .ready → (s.part p).rst = none → (t.part p).state = .resetting ∧ (t.part p).rstLast = 3)
  ∧ (∀ (en : Bool) (n : Nat) (s : State), ∃ t, exec (.vfEnableClear en n) s = .next t ∧ t.pf.vfEnable = en ∧ t.pf.numVfs = min n 32
      ∧ ∀ p < 32, ((vfOn s p = false ∨ (en = true ∧ p < min n 32)) → t.part p = s.part p)
        ∧ (vfOn s p = true → (en = false ∨ min n 32 ≤ p) → (s.part p).state = .ready → (s.part p).rst = none →
            (t.part p).state = .resetting ∧ (t.part p).rstLast = 3))
  ∧ (∀ (p : Nat) (s : State), p < 32 → vfOn s p = true →
    let x := s.part p
    (x.bme = true → x.plan ≠ none → ∃ t, exec (.busMasterEnable (p + 1) false) s = .next t ∧ eventAt t pgPart 4 = true
      ∧ OnlyEvents (s.setPart p { x with bme := false }) t)
    ∧ (x.bme = true → x.plan = none → exec (.busMasterEnable (p + 1) false) s = .next (s.setPart p { x with bme := false }))
    ∧ (∀ a bs, x.bme = false → x.resetting = false → x.heldRecords = [(a, bs)] → x.cqQueue = [] →
        ∃ t, exec (.busMasterEnable (p + 1) true) s = .next t ∧ t.hostOut = Mem.writeBytes s.hostOut a bs
          ∧ (t.part p).heldRecords = [] ∧ (t.part p).bme = true ∧ t.slots = s.slots))
  ∧ (∀ s : State, exec (.busMasterEnable 0 false) s = .next { s with pf := { s.pf with bme := false } })
  ∧ (∀ (v : Nat) (s : State), v < 64 →
    let open_ : Pf := { s.pf with msixMask := Tbl.set s.pf.msixMask v false, msixPend := Tbl.set s.pf.msixPend v false }
    (Tbl.getD s.pf.msixPend v false = false → exec (.msixUnmask 0 v) s = .next { s with pf := open_ })
    ∧ (Tbl.getD s.pf.msixPend v false = true → s.pf.bme = true →
        exec (.msixUnmask 0 v) s = .next { s with pf := open_, msgs := s.msgs ++ [{ func := 0, vector := v }] }))
  ∧ (∀ (p v : Nat) (s : State),
    let x := s.part p
    let x1 := { x with modCount := Tbl.set x.modCount v 0 }
    (Tbl.getD x.modCount v 0 = 0 → exec (.moderationTimer (p + 1) v) s = .next s)
    ∧ (Tbl.getD x.modCount v 0 ≠ 0 → x.resetting = false → x.bme = true → Tbl.getD x.msixMask v true = false →
        exec (.moderationTimer (p + 1) v) s
          = .next { s.setPart p x1 with msgs := s.msgs ++ [{ func := p + 1, vector := v }] })
    ∧ (Tbl.getD x.modCount v 0 ≠ 0 → x.resetting = false → Tbl.getD x.msixMask v true = true →
        exec (.moderationTimer (p + 1) v) s = .next (s.setPart p { x1 with msixPend := Tbl.set x.msixPend v true })))
  ∧ (∀ (src p : Nat) (w : W32) (s : State), p < 32 →
    (canWrite s src (pgFunc p) = false → exec (.intakeRelease src p w) s = .next s)
    ∧ (canWrite s src (pgFunc p) = true → exec (.intakeRelease src p w) s
        = .next ((s.setReg (pgFunc p) 0x058 0#32).setPart p { s.part p with intakeHold := false })))

/-- CREATE, DESTROY, SET_SHARES and PART RESET as PART.CMD takes them (spec/13_host_and_partitions.md). -/
def Obligations.PartitionOrdersAct : Prop :=
  ∀ (src : Nat) (d : W32) (s : State), canWrite s src pgPart = true →
    let p := s.field pgPart 0x040 0 5
    let x := s.part p
    let cfg := stagedCfg s
    let orders : List (Instr × Nat) := [(.create src d, 1), (.destroy src d, 2), (.partReset src d, 3), (.setShares src d, 4),
      (.partResetDiscard src d, 11)]
    let refused (i : Instr) (op code : Nat) : Prop := ∃ t, exec i s = .next t ∧ eventAt t pgPart 3 = true
      ∧ OnlyEvents ((partTaken s src d op).setPart p { x with result := code }) t
    let pending (op : Nat) (o : PartOrder) (st : PartState) : State :=
      { (partTaken s src d op).setPart p { x with state := st, order := some o, orderCfg := cfg, result := 0 } with
        partOrders := s.partOrders ++ [p] }
    (armed s src pgPart = false → ∀ i ∈ orders, exec i.1 s = .next (capture s pgPart 0x068 1 true
      (((d &&& ~~~(0xF#32)) ||| BitVec.ofNat 32 i.2).zeroExtend 64) src))
    ∧ (armed s src pgPart = true →
      ((x.order ≠ none ∨ x.rst ≠ none) → ∀ i ∈ orders, refused i.1 i.2 8)
      ∧ (x.order = none → x.rst = none →
        (s.bring.doneMap.testBit 12 = false → refused (.create src d) 1 8)
        ∧ (s.bring.doneMap.testBit 12 = true → s.sec.lcState = 2 → refused (.create src d) 1 7)
        ∧ (s.bring.doneMap.testBit 12 = true → s.sec.lcState ≠ 2 →
          (createCode s p ≠ 0 → refused (.create src d) 1 (createCode s p))
          ∧ (createCode s p = 0 → s.stroke.state ≠ .stopped → exec (.create src d) s = .next (pending 1 .create .creating))
          ∧ (createCode s p = 0 → s.stroke.state = .stopped → s.partOrders = [] → ∃ t, exec (.create src d) s = .next t
              ∧ (t.part p).state = .ready ∧ (t.part p).cfg = cfg ∧ (t.part p).pagesTotal = cfg.pages ∧ (t.part p).order = none
              ∧ (t.part p).pages = [] ∧ (t.part p).plan = none ∧ eventAt t pgPart 0 = true
              ∧ (∀ l, cfg.lbase ≤ l → l < cfg.lbase + cfg.lcount → (t.remapOf l).part = p)
              ∧ (∀ q, q ≠ p → t.part q = s.part q) ∧ t.slots = s.slots))
        ∧ (x.state = .none → refused (.destroy src d) 2 2 ∧ refused (.setShares src d) 4 2 ∧ refused (.partReset src d) 3 2
            ∧ refused (.partResetDiscard src d) 11 2)
        ∧ (x.state = .ready →
          ((x.plan ≠ none ∨ slotsOf s p ≠ [] ∨ partChanging x = true) → refused (.destroy src d) 2 7)
          ∧ (x.plan = none → slotsOf s p = [] → partChanging x = false →
            (s.stroke.state ≠ .stopped → exec (.destroy src d) s = .next (pending 2 .destroy .destroying))
            ∧ (s.stroke.state = .stopped → s.partOrders = [] → ∃ t, exec (.destroy src d) s = .next t ∧ (t.part p).state = .none
                ∧ (t.part p).cfg = PartCfg.zero ∧ (t.part p).order = none ∧ eventAt t pgPart 1 = true
                ∧ (∀ h ∈ handlesOf s p, (t.handle h).state = .free)))
          ∧ (s.stroke.state ≠ .stopped → exec (.setShares src d) s = .next (pending 4 .shares .ready))
          ∧ (∀ i kind, i ∈ [(Instr.partReset src d, 5), (.partResetDiscard src d, 2)] → i.2 = kind → ∃ t r, exec i.1 s = .next t
              ∧ (t.part p).rst = some r ∧ r.kind = kind ∧ r.keepVf = true ∧ r.bmeAtPoint = x.bme ∧ (t.part p).state = .resetting
              ∧ (t.part p).result = 0 ∧ (t.part p).bme = x.bme ∧ (t.part p).msixMask = x.msixMask
              ∧ t.slots = s.slots ∧ t.hostOut = s.hostOut))))

/-- BRING_STEP_1 to BRING_STEP_15: which orders are accepted, refused and ignored (spec/14_bring_up.md). -/
def Obligations.BringUpStepsStart : Prop :=
  ∀ (src step : Nat) (fast : Bool) (work : BringWork) (i : Instr) (s : State),
    (step, i) ∈ [(1, Instr.bringStep1 src fast work), (2, .bringStep2 src fast work), (3, .bringStep3 src fast work),
      (4, .bringStep4 src fast work), (5, .bringStep5 src fast work), (6, .bringStep6 src fast work), (7, .bringStep7 src fast work),
      (8, .bringStep8 src fast work), (9, .bringStep9 src fast work), (10, .bringStep10 src fast work), (11, .bringStep11 src fast work),
      (12, .bringStep12 src fast work), (13, .bringStep13 src fast work), (14, .bringStep14 src fast work), (15, .bringStep15 src fast work)] →
    let t0 := s.setReg pgBring 0x040 (BitVec.ofNat 32 (step + (if fast then 16 else 0)))
    let b := { s.bring with step := step, busy := true, fast := fast, work := some work, start := stepStart s }
    let t1 : State := { t0 with bring := b }
    (canWrite s src pgBring = false → exec i s = .next s)
    ∧ (canWrite s src pgBring = true →
      (s.bring.busy = true → exec i s = .next t0)
      ∧ (s.bring.busy = false → (step ≠ s.bring.lastDone + 1 ∨ (s.sec.lcState = 2 ∧ 7 < step)) → ∃ t, exec i s = .next t
          ∧ eventAt t pgBring 1 = true ∧ OnlyEvents { t0 with bring := { s.bring with step := step, code := 4 } } t)
      ∧ (s.bring.busy = false → step = s.bring.lastDone + 1 → (s.sec.lcState ≠ 2 ∨ step ≤ 7) →
        (step ≠ 3 → step ≠ 13 → step ≠ 15 → exec i s = .next t1)
        ∧ (step = 3 → exec i s = .next { t1 with conv := { s.conv with en := true } })
        ∧ (step = 13 → (∀ n, n < 12 → (s.port n).state = .disabled) → exec i s = .next t1)
        ∧ (step = 13 → (∃ n, n < 12 ∧ (s.port n).state ≠ .disabled) → s.link.valid = false → ∃ t, exec i s = .next t
            ∧ bringEnded t1 6 0 0 t)
        ∧ (step = 13 → (∃ n, n < 12 ∧ (s.port n).state ≠ .disabled) → s.link.valid = true → ∃ t, exec i s = .next t
            ∧ t = { t1 with ports := t.ports, pins := { s.pins with linkIdle := false } }
            ∧ (∀ n, t.port n = if n < 12 ∧ (s.port n).state = .down
                then { s.port n with state := .training, trains := min ((s.port n).trains + 1) (2 ^ 16 - 1) } else s.port n))
        ∧ (step = 15 → s.stroke.epochWritten = false → ∃ t, exec i s = .next t ∧ bringEnded t1 6 0 0 t)
        ∧ (step = 15 → s.stroke.epochWritten = true → exec i s = .next { t1 with
            stroke := { s.stroke with state := if s.stroke.state = .stopped then .waitEpoch else s.stroke.state } })))

/-- BRING_STEP_COMPLETE and BRING_STEP_TIMEOUT: how a step ends (spec/14_bring_up.md). -/
def Obligations.BringUpStepsEnd : Prop :=
  (∀ (ms : Nat) (s : State), s.bring.busy = false →
    exec (.bringStepComplete ms) s = .next s ∧ exec (.bringStepTimeout ms) s = .next s)
  ∧ (∀ (ms : Nat) (s : State), s.bring.busy = true →
    let b := s.bring
    (∃ t, exec (.bringStepComplete ms) s = .next t
      ∧ ((t.bring.busy = false ∧ t.bring.code ∈ [1, 2, 3] ∧ t.bring.lastDone = b.step ∧ t.bring.doneMap = b.doneMap ||| 2 ^ b.step
            ∧ t.bring.elapsed = min ms (2 ^ 24 - 1) ∧ eventAt t pgBring 0 = true)
        ∨ (t.bring.busy = false ∧ t.bring.code = 6 ∧ t.bring.lastDone = b.lastDone ∧ t.bring.doneMap = b.doneMap
            ∧ t.bring.elapsed = min ms (2 ^ 24 - 1) ∧ eventAt t pgBring 1 = true)
        ∨ (b.step = 15 ∧ s.stroke.refOk = true ∧ s.stroke.state ≠ .locked ∧ t = s)))
    ∧ (b.step = 13 → exec (.bringStepTimeout ms) s = .next s)
    ∧ (b.step ≠ 13 → ∃ t, exec (.bringStepTimeout ms) s = .next t ∧ t.bring.busy = false ∧ t.bring.code = 5 ∧ t.bring.detail = 0
        ∧ t.bring.lastDone = b.lastDone ∧ t.bring.doneMap = b.doneMap ∧ t.bring.elapsed = min ms (2 ^ 24 - 1) ∧ eventAt t pgBring 1 = true
        ∧ (b.step ∉ [3, 8, 9, 10, 15] → bringEnded s 5 0 ms t)
        ∧ (b.step = 3 → bringEnded { s with conv := { s.conv with en := b.start.convEn, ready := b.start.convReady } } 5 0 ms t)
        ∧ (∀ bad, b.step = 8 → b.work = some (.bist bad) → (∀ c ∈ bad, c < numPcores → (t.pcore c).kind = .bad)
            ∧ (∀ c, c ∉ bad → (s.pcore c).kind ≠ .spare → (t.pcore c).kind = (s.pcore c).kind))
        ∧ (b.step = 15 → bringEnded { s with stroke := { s.stroke with
              state := if b.start.running = true then s.stroke.state else .stopped } } 5 0 ms t))
    ∧ (∀ (code detail : Nat), detail < 2 ^ 32 →
        ((∃ n, (b.step = 2 ∨ b.step = 5) ∧ b.work = some (.fuses (some n)) ∧ code = 6 ∧ detail = n)
          ∨ (b.step = 2 ∧ b.work = some (.fuses none) ∧ code = 1 ∧ detail = 0)
          ∨ (∃ bad, b.step = 8 ∧ b.work = some (.bist bad) ∧ b.fast = true ∧ b.meshOk = true ∧ code = 2 ∧ detail = 0)
          ∨ (∃ bad, b.step = 11 ∧ b.work = some (.trims bad true) ∧ code = 6 ∧ detail = 0)
          ∨ (b.step = 13 ∧ (∀ n, n < 12 → (s.port n).state = .up ∨ (s.port n).state = .disabled) ∧ code = 1 ∧ detail = 0)
          ∨ (b.step = 13 ∧ detail ≠ 0 ∧ (∀ n, detail.testBit n = true ↔ (n < 12 ∧ (s.port n).state ≠ .up ∧ (s.port n).state ≠ .disabled))
              ∧ code = 3)
          ∨ (b.step = 14 ∧ (∃ p, p < 32 ∧ (s.part p).order = some .create) ∧ code = 6 ∧ detail = 0)
          ∨ (b.step = 15 ∧ s.stroke.refOk = false ∧ code = 6 ∧ detail = 0)
          ∨ (b.step = 15 ∧ s.stroke.refOk = true ∧ s.stroke.state = .locked ∧ code = 1 ∧ detail = 0)) →
        ∃ t, exec (.bringStepComplete ms) s = .next t ∧ bringEnded s code detail ms t)
    ∧ (∀ bad down conn routes, b.step = 9 → b.work = some (.mesh bad down conn routes) → b.fast = true → b.meshOk = true →
        ∃ t, exec (.bringStepComplete ms) s = .next t ∧ bringEnded (restoreRouters s) 2 0 ms t
          ∧ (∀ c, (t.pcore c).rtrUp = (s.pcore c).rtrKept ∧ (t.pcore c).portUp = (s.pcore c).portKept
              ∧ (t.pcore c).rtrFault = (s.pcore c).faultKept))
    ∧ (∀ bad, b.step = 11 → b.work = some (.trims bad false) → ∃ t, exec (.bringStepComplete ms) s = .next t
        ∧ t.bring.trimsLoaded = true ∧ (∀ c, (t.pcore c).tCal = (s.pcore c).tCalRec)
        ∧ (∀ k, (t.array k).trimBad = true ↔ (k ∈ bad ∨ (s.array k).trimBad = true))
        ∧ (bad = [] → t.bring.code = 1) ∧ (bad ≠ [] → t.bring.code = 3 ∧ eventAt t pgCal 2 = true))
    ∧ (∀ (hbm mesh arr ext int : Bool) (age : Nat), b.step = 1 → b.work = some (.selfTest none hbm mesh arr age ext int) →
        (ext || int) = true → ∃ t, exec (.bringStepComplete ms) s = .next t ∧ t.bring.code = 6 ∧ t.bring.detail = 0xFFFF0001
          ∧ t.therm.leakLatched = true ∧ t.pins = s.pins)
    ∧ (b.step = 14 → (∀ p, p < 32 → (s.part p).order ≠ some .create) → ∃ t, exec (.bringStepComplete ms) s = .next t
        ∧ bringEnded { s with bring := { b with boot := [] }, arrays := t.arrays } 1 0 ms t
        ∧ ∀ k, t.array k = if (s.array k).resPart ∈ b.boot.map (·.1) then { s.array k with verified := false } else s.array k))

/-- FWUP_PREPARE, FWUP_READY, FWUP_SWITCH, FWUP_REVERT, FWUP_ABORT and FIRMWARE_BANK_SWITCH (spec/14_bring_up.md). -/
def Obligations.FirmwareUpdatesOfAPartition : Prop :=
  (∀ (src p : Nat) (s : State), p < 32 → canWrite s src pgBring = true →
    let at_ := s.pair pgBring 0x07C 0x080
    let f := fwupOf s p
    let base (op : Nat) : State := s.setReg pgBring 0x078 (BitVec.ofNat 32 (p + 32 * op))
    let answer (op : Nat) (g : Fwup) (r : Nat) : State := { base op with bring := { s.bring with
      fwup := Tbl.set s.bring.fwup p { g with result := r }, fwupPart := p, fwupResult := r } }
    (∀ b, exec (.fwupPrepare src p b) s = .next (answer 1 f 7) ∨ (s.part p).state ≠ .none)
    ∧ ((s.part p).state = .none → exec (.fwupSwitch src p) s = .next (answer 2 f 7) ∧ exec (.fwupRevert src p) s = .next (answer 4 f 7))
    ∧ ((s.part p).state ≠ .none → (s.bring.doneMap.testBit 15 = false ∨ f.state ∈ [1, 2, 3]) →
        ∀ b, exec (.fwupPrepare src p b) s = .next (answer 1 f 3))
    ∧ ((s.part p).state ≠ .none → s.bring.doneMap.testBit 15 = true → f.state ∉ [1, 2, 3] →
        (∃ t, exec (.fwupPrepare src p none) s = .next t ∧ eventAt t pgBring 5 = true ∧ OnlyEvents (answer 1 { f with state := 4 } 5) t)
        ∧ (∀ bs, verify s 2 bs = 0 → exec (.fwupPrepare src p (some bs)) s = .next (answer 1 { f with
              state := 1, round := 0, pcore := 0,
              cand := some { version := mfVersion bs, mfDigest := mfDigest bs, image := coreImage bs } } 0))
        ∧ (∀ bs, verify s 2 bs ≠ 0 → ∃ t, exec (.fwupPrepare src p (some bs)) s = .next t ∧ eventAt t pgBring 5 = true
            ∧ OnlyEvents (answer 1 { f with state := 4 } (if verify s 2 bs = 2 then 2 else 1)) t))
    ∧ ((s.part p).state ≠ .none →
        (f.state ≠ 2 → exec (.fwupSwitch src p) s = .next (answer 2 f 3))
        ∧ (f.state = 2 → at_ < s.stroke.number + 2 → exec (.fwupSwitch src p) s = .next (answer 2 f 4))
        ∧ (f.state = 2 → s.stroke.number + 2 ≤ at_ →
            exec (.fwupSwitch src p) s = .next (answer 2 { f with state := 3, at_ := at_, revert := false } 0))
        ∧ ((f.state ∈ [1, 2, 3] ∨ f.standby = none) → exec (.fwupRevert src p) s = .next (answer 4 f 3))
        ∧ (f.state ∉ [1, 2, 3] → f.standby ≠ none → s.stroke.number + 2 ≤ at_ →
            exec (.fwupRevert src p) s = .next (answer 4 { f with state := 3, at_ := at_, revert := true } 0)))
    ∧ (f.state ∈ [1, 2, 3] → exec (.fwupAbort src p) s = .next (answer 3 { f with state := 0, standby := none, cand := none } 0))
    ∧ (f.state ∉ [1, 2, 3] → exec (.fwupAbort src p) s = .next (answer 3 f 0)))
  ∧ (∀ (p : Nat) (rounds : List (List (Nat × Nat))) (s : State),
    let f := fwupOf s p
    (f.state ≠ 1 → exec (.fwupReady p rounds) s = .next s)
    ∧ (f.state = 1 → 9 ≤ rounds.length → rounds.getD 8 [] ≠ [] → ∃ t, exec (.fwupReady p rounds) s = .next t
        ∧ (fwupOf t p).state = 4 ∧ (fwupOf t p).result = 6 ∧ (fwupOf t p).round = 8 ∧ (fwupOf t p).standby = f.standby
        ∧ (fwupOf t p).active = f.active ∧ t.bring.fwupResult = 6 ∧ eventAt t pgBring 5 = true
        ∧ (∀ q, q ≠ p → fwupOf t q = fwupOf s q) ∧ OnlyEvents { s with bring := t.bring } t)
    ∧ (f.state = 1 → (rounds.length < 9 ∨ rounds.getD 8 [] = []) → ∃ t, exec (.fwupReady p rounds) s = .next t
        ∧ (fwupOf t p).state = 2 ∧ (fwupOf t p).standby = f.cand ∧ (fwupOf t p).active = f.active ∧ (fwupOf t p).result = f.result
        ∧ eventAt t pgBring 3 = true ∧ (∀ q, q ≠ p → fwupOf t q = fwupOf s q) ∧ OnlyEvents { s with bring := t.bring } t))
  ∧ (∀ (p : Nat) (s : State),
    let f := fwupOf s p
    (f.state ≠ 3 ∨ s.stroke.count ≠ 0 → exec (.firmwareBankSwitch p) s = .next s)
    ∧ (∀ j, (s.part p).plan ≠ none → (s.part p).job = some j → (s.stroke.number < f.at_ ∨ j.ordersDue = false ∨ j.hold ≠ none) →
        exec (.firmwareBankSwitch p) s = .next s)
    ∧ (f.state = 3 → s.stroke.count = 0 →
        ((s.part p).plan = none ∨ ∃ j, (s.part p).job = some j ∧ f.at_ ≤ s.stroke.number ∧ j.ordersDue = true ∧ j.hold = none) →
        ∃ t, exec (.firmwareBankSwitch p) s = .next t ∧ eventAt t pgBring 4 = true ∧ OnlyEvents { s with bring := { s.bring with
          fwup := Tbl.set s.bring.fwup p { f with state := 0, active := f.standby, standby := some (f.active.getD s.bring.coreImage) } } } t))

/-- PERST_N_ASSERT, PERST_N_DEASSERT, WARM_DEVICE_RESET, POWER_ON, POWER_LOSS and LOCK_LOST (spec/13_host_and_partitions.md, spec/14_bring_up.md, spec/19_module_interface.md). -/
def Obligations.DeviceResetsKeepWhatTheManualKeeps : Prop :=
  let lost (s t : State) : Prop := t.pending = s.pending ∧ t.msgs = s.msgs ∧ t.hostOut = s.hostOut ∧ t.parts = [] ∧ t.slots = []
    ∧ t.handles = [] ∧ t.scribes = [] ∧ t.partOrders = [] ∧ t.regs = [] ∧ t.pages = [] ∧ t.arms = [] ∧ t.stroke.state = .stopped
    ∧ t.bring.doneMap = 0 ∧ t.bring.lastDone = 0 ∧ t.bring.code = 0 ∧ t.bring.busy = false ∧ t.shut = false ∧ t.pins.health = false
    ∧ t.fuseBad = s.fuseBad ∧ t.remapRec = s.remapRec ∧ t.sec.lcState = s.sec.lcState ∧ t.sec.unlocked = false
    ∧ t.sec.unlockCtr = s.sec.unlockCtr ∧ t.sec.fwSvn = s.sec.fwSvn ∧ t.sec.slotA = s.sec.slotA ∧ t.sec.slotB = s.sec.slotB
    ∧ (∀ k, (t.array k).resState = (s.array k).resState ∧ (t.array k).edition = (s.array k).edition
        ∧ (t.array k).cells = (s.array k).cells ∧ (t.array k).writeCnt = (s.array k).writeCnt
        ∧ (t.array k).trimStored = (s.array k).trimStored)
    ∧ (∀ n, n < 20 → (t.chan n).zero = (s.chan n).zero ∧ (t.chan n).sysCal = (s.chan n).sysCal)
  let warm (s t : State) : Prop := lost s t ∧ t.bring.warm = true ∧ t.stroke = { Stroke.reset with slips := s.stroke.slips }
    ∧ (∀ k, (t.array k).eval = (s.array k).eval.map (fun e => { e with wanted := false }))
    ∧ (∀ c, (t.pcore c).kind = (s.pcore c).kind ∧ (t.pcore c).lcore = (s.pcore c).lcore ∧ (t.pcore c).tCalRec = (s.pcore c).tCalRec)
    ∧ t.mesh.routes = s.mesh.routes ∧ t.mesh.edgeDown = s.mesh.edgeDown ∧ t.mesh.rtUpdates = s.mesh.rtUpdates
    ∧ t.serve.intakes = s.serve.intakes
    ∧ (∀ l, (t.remapOf l).pcore = (s.remapOf l).pcore ∧ (t.remapOf l).mode = (s.remapOf l).mode ∧ (t.remapOf l).next = none)
    ∧ t.mesh.spareTotal = s.mesh.spareTotal ∧ (∀ k, (t.stack k).ce = (s.stack k).ce ∧ (t.stack k).ue = (s.stack k).ue
        ∧ (t.stack k).retired = (s.stack k).retired)
    ∧ t.therm.failedCnt = s.therm.failedCnt ∧ t.therm.leakLatched = s.therm.leakLatched ∧ t.sec.seq = s.sec.seq
    ∧ (s.shut = true → t.bring.retained = [] ∧ t.bring.keepHbm = false ∧ t.bring.keepMesh = false ∧ t.bring.keepArray = false)
  (∀ s : State,
    (s.pins.pwrGood = false → exec .perstNAssert s = .next { s with pins := { s.pins with perstN := false } }
      ∧ exec .warmDeviceReset s = .next s ∧ exec .perstNDeassert s = .next { s with pins := { s.pins with perstN := true } })
    ∧ (s.pins.pwrGood = true →
      (∃ t, exec .perstNAssert s = .next t ∧ warm s t ∧ t.pins.perstN = false ∧ t.pins.faultN = false ∧ t.pins.linkIdle = true
        ∧ t.pins.pcieUp = false ∧ t.pins.regulators = s.pins.regulators)
      ∧ (∃ t, exec .warmDeviceReset s = .next t ∧ warm s t ∧ t.pins.faultN = (s.pins.perstN && s.pins.selfTested)
        ∧ t.pins.perstN = s.pins.perstN ∧ t.pins.regulators = s.pins.regulators)
      ∧ exec .perstNDeassert s = .next { s with
          pins := { s.pins with perstN := true, pcieUp := !s.shut, faultN := s.pins.selfTested && !s.shut && !s.bring.lockStop }
          clock := { s.clock with en := s.clock.en ||| (2 ^ 16 + 2 ^ 20), lock := s.clock.lock ||| (2 ^ 16 + 2 ^ 20) } })
    ∧ (∃ t, exec .powerOn s = .next t ∧ lost s t ∧ t.stroke = Stroke.reset ∧ (∀ c, t.pcore c = { PCore.reset with tCalRec := (s.pcore c).tCalRec })
        ∧ (∀ k, (t.array k).eval = (s.array k).eval.map (fun e => { e with wanted := false })) ∧ t.remap = [] ∧ t.hbm = [] ∧ t.bring = Bring.reset
        ∧ t.mesh = Mesh.reset ∧ t.therm = Therm.reset ∧ t.pins.pwrGood = true ∧ t.pins.faultN = false)
    ∧ (∃ t, exec .powerLoss s = .next t ∧ lost s t ∧ t.stroke = Stroke.reset ∧ (∀ c, t.pcore c = { PCore.reset with tCalRec := (s.pcore c).tCalRec })
        ∧ (∀ k, (t.array k).eval = none) ∧ t.bring = Bring.reset ∧ t.pins.pwrGood = false
        ∧ t.pins.pcieUp = false ∧ t.pins.regulators = false))
  ∧ (∀ (d : Nat) (s : State),
    ((s.bring.doneMap.testBit 4 = false ∨ 25 ≤ d ∨ s.clock.lock.testBit d = false) → exec (.lockLost d) s = .next s)
    ∧ (s.bring.doneMap.testBit 4 = true → d < 25 → s.clock.lock.testBit d = true →
      let x := Tbl.getD s.clock.dom d Domain.reset
      let s1 : State := { s with
        clock := { s.clock with lock := s.clock.lock - 2 ^ d, dom := Tbl.set s.clock.dom d { x with losses := min (x.losses + 1) 15 } }
        pins := { s.pins with faultN := false }
        bring := { s.bring with lockStop := true } }
      (strokesRun s = true → ∃ t, exec (.lockLost d) s = .next t ∧ eventAt t pgClock 1 = true ∧ OnlyEvents s1 t)
      ∧ (strokesRun s = false → ∃ t, exec (.lockLost d) s = .next t ∧ eventAt t pgClock 1 = true ∧ t.clock = s1.clock
          ∧ t.pins.faultN = false ∧ t.pins.health = false ∧ t.parts = [] ∧ t.slots = [] ∧ t.handles = [] ∧ t.scribes = []
          ∧ t.stroke.state = .stopped ∧ t.bring.hbmOk = false ∧ t.bring.meshOk = false ∧ t.bring.arrayOk = false
          ∧ t.bring.lockStop = true ∧ t.hostOut = s.hostOut ∧ t.sec = s.sec)))

/-- SEC_REPORT, SEC_GET_CERT, MCTP_GET_REPORT, MCTP_GET_CERT, REPORT_SNAPSHOT and REPORT_SIGNED (spec/15_security_lifecycle.md). -/
def Obligations.ReportsAndCertificatesAreServedInOrder : Prop :=
  (∀ (src : Nat) (s : State), canWrite s src pgSec = true →
    let nonceOf (n : Option (List Byte)) : Instr := .secReport src n
    let shot (t : State) (r : SecReq) : State := { t with sec := { t.sec with lastOp := r.op, reqs := s.sec.reqs ++ [r] } }
    (armed s src pgSec = false →
      (∀ n, exec (nonceOf n) s = .next (capture s pgSec 0x050 1 true 0x80000001#64 src))
      ∧ exec (.secGetCert src) s = .next (capture s pgSec 0x050 1 true 0x80000002#64 src))
    ∧ (armed s src pgSec = true → pfBusy s = true →
      (∀ n, exec (nonceOf n) s = .next (secAnswered (secTaken s src 1 false) 1 4))
      ∧ exec (.secGetCert src) s = .next (secAnswered (secTaken s src 2 false) 2 4))
    ∧ (armed s src pgSec = true → pfBusy s = false →
      (∃ t, exec (nonceOf none) s = .next t ∧ eventAt t pgSec 1 = true
        ∧ OnlyEvents (secAnswered (secTaken s src 1 false) 1 5) t)
      ∧ (∀ n, let r : SecReq := { mc := false, op := 1, nonce := bytesAt n 0 32, pmask := s.reg pgSec 0x060, snapshot := none }
          (strokesRun s = true → exec (nonceOf (some n)) s = .next (shot (secTaken s src 1 false) r))
          ∧ (strokesRun s = false → exec (nonceOf (some n)) s
              = .next (shot (secTaken s src 1 false) { r with snapshot := some (reportBody (secTaken s src 1 false) r) })))
      ∧ exec (.secGetCert src) s = .next (shot (secTaken s src 2 false)
          { mc := false, op := 2, nonce := [], pmask := 0#32, snapshot := none })))
  ∧ (∀ (n : List Byte) (m : W32) (s : State),
    let busy : State := { s with sec := { s.sec with mcOut := s.sec.mcOut ++ [[4#8]] } }
    let r : SecReq := { mc := true, op := 1, nonce := bytesAt n 0 32, pmask := m, snapshot := none }
    let cert : SecReq := { mc := true, op := 2, nonce := [], pmask := 0#32, snapshot := none }
    ((∃ q ∈ s.sec.reqs, q.mc = true) → exec (.mctpGetReport n m) s = .next busy ∧ exec .mctpGetCert s = .next busy)
    ∧ ((∀ q ∈ s.sec.reqs, q.mc = false) →
      exec .mctpGetCert s = .next { s with sec := { s.sec with reqs := s.sec.reqs ++ [cert] } }
      ∧ (strokesRun s = true → exec (.mctpGetReport n m) s = .next { s with sec := { s.sec with reqs := s.sec.reqs ++ [r] } })
      ∧ (strokesRun s = false → exec (.mctpGetReport n m) s = .next { s with
          sec := { s.sec with reqs := s.sec.reqs ++ [{ r with snapshot := some (reportBody s r) }] } })))
  ∧ (∀ s : State,
    (strokesRun s = true → s.stroke.count ≠ 0 → exec .reportSnapshot s = .next s)
    ∧ ((strokesRun s = false ∨ s.stroke.count = 0) → ∃ t, exec .reportSnapshot s = .next t ∧ t = { s with sec := { s.sec with reqs := t.sec.reqs } }
        ∧ t.sec.reqs.length = s.sec.reqs.length
        ∧ (∀ (k : Nat) (r : SecReq), s.sec.reqs[k]? = some r →
            t.sec.reqs[k]? = some (if r.op = 1 ∧ r.snapshot = none then { r with snapshot := some (reportBody s r) } else r))))
  ∧ (∀ (dmaOk : Bool) (s : State),
    (s.sec.reqs = [] → exec (.reportSigned dmaOk) s = .next s)
    ∧ (∀ (r : SecReq) (rest : List SecReq), s.sec.reqs = r :: rest →
      (r.op = 1 → r.snapshot = none → exec (.reportSigned dmaOk) s = .next s)
      ∧ (∀ out, ((∃ b, r.op = 1 ∧ r.snapshot = some b ∧ out = signedReport b) ∨ (r.op = 2 ∧ out = certificate s)) →
        let c := { s.sec with reqs := rest, seq := if r.op = 1 then s.sec.seq + 1 else s.sec.seq }
        let a := 4096 * (s.pair pgSec 0x058 0x05C / 4096) + 4096
        (r.mc = true → exec (.reportSigned dmaOk) s = .next { s with sec := { c with mcOut := s.sec.mcOut ++ [out] } })
        ∧ (r.mc = false → dmaOk = true → ∃ t, exec (.reportSigned dmaOk) s = .next t ∧ eventAt t pgSec 0 = true ∧ OnlyEvents { s with
            sec := { c with result := 0, lastOp := r.op }, hostOut := Mem.writeBytes s.hostOut a out } t)
        ∧ (r.mc = false → dmaOk = false → ∃ t, exec (.reportSigned dmaOk) s = .next t ∧ eventAt t pgSec 1 = true
            ∧ OnlyEvents { s with sec := { c with result := 5, lastOp := r.op } } t))))

/-- UNLOCK, RELOCK, their MCTP forms and the expiry, SLOT_WRITE, SVN_COMMIT, SEAL, RETURN and the erase (spec/15_security_lifecycle.md). -/
def Obligations.LifeCycleUnlockAndFirmwareSlots : Prop :=
  (∀ (src : Nat) (s : State), canWrite s src pgSec = true →
    let orders : List (Instr × Nat × Bool) := [(.unlock src none, 3, false), (.relock src, 4, false), (.slotWrite src true none, 5, true),
      (.slotWrite src false none, 5, false), (.svnCommit src, 6, false), (.returnOrder src, 7, false), (.seal src, 8, false)]
    (armed s src pgSec = false → ∀ o ∈ orders, exec o.1 s = .next (capture s pgSec 0x050 1 true
        (BitVec.ofNat 64 (2 ^ 31 + o.2.1 + (if o.2.2 then 16 else 0))) src))
    ∧ (armed s src pgSec = true → pfBusy s = true → ∀ o ∈ orders, exec o.1 s = .next (secAnswered (secTaken s src o.2.1 o.2.2) o.2.1 4))
    ∧ (armed s src pgSec = true → pfBusy s = false →
      let at_ (op : Nat) : State := secTaken s src op false
      exec (.unlock src none) s = .next (secAnswered (at_ 3) 3 5)
      ∧ (∀ k, tokenOk s k = false → exec (.unlock src (some k)) s = .next (secAnswered (at_ 3) 3 7))
      ∧ (∀ k, tokenOk s k = true → ∃ t, exec (.unlock src (some k)) s = .next t ∧ eventAt t pgSec 2 = true
          ∧ OnlyEvents { at_ 3 with sec := { s.sec with
              result := 0, lastOp := 3, unlocked := true, unlockCtr := s.sec.unlockCtr + 1, unlockLeft := numAt k 12 2 } } t)
      ∧ (s.sec.unlocked = false → exec (.relock src) s = .next (secAnswered (at_ 4) 4 0))
      ∧ (s.sec.unlocked = true → ∃ t, exec (.relock src) s = .next t ∧ eventAt t pgSec 3 = true
          ∧ OnlyEvents { at_ 4 with sec := { s.sec with result := 0, lastOp := 4, unlocked := false, unlockLeft := 0 } } t)
      ∧ (∀ (b : Bool) (x : Option (List Byte)),
          (s.bring.doneMap.testBit 6 = true → s.sec.bootedB = b →
            exec (.slotWrite src b x) s = .next (secAnswered (secTaken s src 5 b) 5 3))
          ∧ ((s.bring.doneMap.testBit 6 = false ∨ s.sec.bootedB ≠ b) →
            (x = none → ∃ t, exec (.slotWrite src b x) s = .next t ∧ eventAt t pgSec 6 = true
              ∧ OnlyEvents (secAnswered (secTaken s src 5 b) 5 5) t)
            ∧ (∀ bs, x = some bs → verify s 1 bs ≠ 0 → ∃ t, exec (.slotWrite src b x) s = .next t ∧ eventAt t pgSec 6 = true
                ∧ OnlyEvents (secAnswered (secTaken s src 5 b) 5 (verify s 1 bs)) t)
            ∧ (∀ bs, x = some bs → verify s 1 bs = 0 → exec (.slotWrite src b x) s = .next { secTaken s src 5 b with
                sec := if b then { s.sec with slotWrite := some (b, bs), lastOp := 5, bValid := false, slotB := [] }
                       else { s.sec with slotWrite := some (b, bs), lastOp := 5, aValid := false, slotA := [] } })))
      ∧ (s.bring.doneMap.testBit 6 = false → exec (.svnCommit src) s = .next (secAnswered (at_ 6) 6 3))
      ∧ (s.bring.doneMap.testBit 6 = true → ∃ rev, exec (.svnCommit src) s = .next { at_ 6 with sec := { s.sec with
            result := 0, lastOp := 6, fwSvn := max s.sec.fwSvn (mfSvn (runningSlot s)), keySvn := max s.sec.keySvn (mfKeySvn (runningSlot s)),
            revoked := s.sec.revoked ||| rev } }
          ∧ (∀ n, rev.testBit n = true ↔ (n < 4 ∧ n ≠ mfRoot (runningSlot s) ∧ (mfRevoke (runningSlot s)).testBit n = true)))
      ∧ (s.sec.lcState ≠ 0 → exec (.seal src) s = .next (secAnswered (at_ 8) 8 3))
      ∧ (s.sec.lcState = 0 → ∃ t, exec (.seal src) s = .next t ∧ eventAt t pgSec 4 = true
          ∧ OnlyEvents { at_ 8 with sec := { s.sec with result := 0, lastOp := 8, lcState := 1 } } t)
      ∧ (returnOk s = false → exec (.returnOrder src) s = .next (secAnswered (at_ 7) 7 3))
      ∧ (returnOk s = true → ∃ t, exec (.returnOrder src) s = .next t ∧ eventAt t pgSec 4 = true
          ∧ t.sec = { s.sec with result := 0, lastOp := 7, lcState := 2, unlocked := false, unlockLeft := 0, erasing := true }
          ∧ t.bring.boot = [] ∧ t.bring.retained = [] ∧ (∀ p, (fwupOf t p).standby = none) ∧ t.integ.taints = []
          ∧ (∀ k, (t.array k).resState = .empty ∧ (t.array k).cells = (s.array k).cells ∧ (t.array k).writeCnt = (s.array k).writeCnt)
          ∧ t.parts.map (·.1) = s.parts.map (·.1) ∧ t.hostOut = s.hostOut)))
  ∧ (∀ (k : List Byte) (s : State),
    let answer (t : State) (code : Byte) : State := { t with sec := { t.sec with mcOut := s.sec.mcOut ++ [[code]] } }
    (s.sec.unlocked = false → exec .unlockExpiry s = .next s)
    ∧ (s.sec.unlocked = true → ∃ t, exec .unlockExpiry s = .next t ∧ eventAt t pgSec 3 = true
        ∧ OnlyEvents { s with sec := { s.sec with unlocked := false, unlockLeft := 0 } } t)
    ∧ ((∃ q ∈ s.sec.reqs, q.mc = true) → exec (.mctpUnlock k) s = .next (answer s 4#8) ∧ exec .mctpRelock s = .next (answer s 4#8))
    ∧ ((∀ q ∈ s.sec.reqs, q.mc = false) →
      (tokenOk s k = false → exec (.mctpUnlock k) s = .next (answer s 7#8))
      ∧ (tokenOk s k = true → ∃ t, exec (.mctpUnlock k) s = .next t ∧ eventAt t pgSec 2 = true ∧ OnlyEvents (answer { s with
          sec := { s.sec with unlocked := true, unlockCtr := s.sec.unlockCtr + 1, unlockLeft := numAt k 12 2 } } 0#8) t)
      ∧ (s.sec.unlocked = false → exec .mctpRelock s = .next (answer s 0#8))
      ∧ (s.sec.unlocked = true → ∃ t, exec .mctpRelock s = .next t ∧ eventAt t pgSec 3 = true
          ∧ OnlyEvents (answer { s with sec := { s.sec with unlocked := false, unlockLeft := 0 } } 0#8) t)))
  ∧ (∀ (rb : List Byte) (s : State),
    (s.sec.slotWrite = none → exec (.slotWriteDone rb) s = .next s)
    ∧ (∀ (b : Bool) (x : List Byte), s.sec.slotWrite = some (b, x) → ∃ t, exec (.slotWriteDone rb) s = .next t ∧ eventAt t pgSec 6 = true
        ∧ OnlyEvents { s with sec := if b then { s.sec with
              slotWrite := none, result := verify s 1 rb, slotB := rb, bValid := verify s 1 rb == 0 }
            else { s.sec with slotWrite := none, result := verify s 1 rb, slotA := rb, aValid := verify s 1 rb == 0 } } t))
  ∧ (∀ (failed : List Nat) (s : State),
    ((s.sec.erasing = false ∨ s.bring.doneMap.testBit 7 = false) → exec (.returnEraseDone failed) s = .next s)
    ∧ (s.sec.erasing = true → s.bring.doneMap.testBit 7 = true → ∃ t, exec (.returnEraseDone failed) s = .next t
        ∧ t.sec = { s.sec with erasing := false, eraseDone := failed.isEmpty, eraseFail := !failed.isEmpty } ∧ t.scribes = []
        ∧ (∀ k, (t.array k).cells = if k ∈ failed then (s.array k).cells else [])
        ∧ (failed = [] → eventAt t pgSec 5 = true) ∧ (failed ≠ [] → t.pages = s.pages ∧ t.msgs = s.msgs)
        ∧ (∀ k, (t.array k).writeCnt = (s.array k).writeCnt) ∧ t.hostOut = s.hostOut))

/-- THERMAL_SAMPLE, THROTTLE_STEP, RATE_DIVIDER_STEP, CROSSING_SWITCH_DONE, CROSSING_MESOCHRONOUS and LEAK_DETECTED (spec/16_thermal.md, spec/05_cores_and_mesh.md, spec/19_module_interface.md). -/
def Obligations.TemperatureThrottlesAndShutsDown : Prop :=
  let isShut (t : State) : Prop := t.shut = true ∧ t.pins.faultN = false ∧ t.pins.health = false ∧ t.pins.linkIdle = true
    ∧ t.pins.pcieUp = false ∧ t.stroke.state = .stopped ∧ t.parts = [] ∧ t.slots = [] ∧ t.handles = [] ∧ t.scribes = []
    ∧ t.bring.hbmOk = false ∧ t.bring.meshOk = false ∧ t.bring.arrayOk = false ∧ (∀ k, k < 8 → (t.stack k).selfRefresh = true)
  (∀ (readings : List (Nat × SensorRead)) (s : State), (readings.map (·.1)).Nodup →
    ∃ t, exec (.thermalSample readings) s = .next t
      ∧ (∀ i r, (i, r) ∈ readings → i < 308 →
          t.sensor i = takeSample (s.sensor i) r (if s.therm.fast then 1 else 16) (shutLevel s i))
      ∧ (∀ i, (∀ r, (i, r) ∉ readings) → t.sensor i = s.sensor i)
      ∧ t.regs = s.regs ∧ t.arrays.length = s.arrays.length ∧ t.hostOut = s.hostOut ∧ t.sec = s.sec ∧ t.clock = s.clock
      ∧ (∀ hub, hub < 8 →
          let up (i : Nat) : Prop := i ∈ hubSensors hub ∧ (t.sensor i).failed = false
          ((s.hub hub).blind = true ∨ (∀ i, up i → 288 ≤ i) → (t.hub hub).thDiv = 8 ∧ (t.hub hub).blind = true)
          ∧ ((s.hub hub).blind = false → (∃ i, up i ∧ i < 288) →
              ((s.hub hub).hot = false → (∃ i, up i ∧ throttleLevel s i ≤ (t.sensor i).reading) →
                (t.hub hub).thDiv = max 1 (effDiv s hub - 1) ∧ (t.hub hub).hot = true)
              ∧ (((s.hub hub).hot = true ∨ ∀ i, up i → (t.sensor i).reading < throttleLevel s i) → (t.hub hub).thDiv = (s.hub hub).thDiv))
          ∧ ((∃ i d, up i ∧ riseOf (t.sensor i) = some d ∧ 16 * (riseLimit s : Int) < 10 * d) →
              (t.hub hub).rateDiv = max 1 (effDiv s hub / 2))
          ∧ ((∀ i d, up i → riseOf (t.sensor i) = some d → 10 * d ≤ 16 * (riseLimit s : Int)) → (t.hub hub).rateDiv = (s.hub hub).rateDiv))
      ∧ (s.shut = false → ∀ r, r < 8 → dividerFollows s t r)
      ∧ (s.shut = false → (∃ i, i < 308 ∧ (t.sensor i).failed = false ∧ (t.sensor i).shut = true ∧ (s.sensor i).shut = true) →
          isShut t ∧ t.therm.shutValid = true ∧ t.therm.shutSensor < 308 ∧ t.pins.regulators = s.pins.regulators)
      ∧ ((∀ i, i < 308 → (t.sensor i).failed = true ∨ (t.sensor i).shut = false ∨ (s.sensor i).shut = false) →
          t.shut = s.shut ∧ t.slots = s.slots ∧ t.stroke = s.stroke ∧ t.pins = s.pins ∧ t.bring = s.bring))
  ∧ (∀ (hub : Nat) (s : State), hub < 8 →
    let h := s.hub hub
    (h.blind = true → exec (.throttleStep hub) s = .next s)
    ∧ (h.blind = false → ∃ t, exec (.throttleStep hub) s = .next t
        ∧ t.hub hub = { h with thDiv := if h.hot then max 1 (effDiv s hub - 1) else if h.cool then min 16 (h.thDiv + 1) else h.thDiv }
        ∧ dividerFollows s t hub ∧ (∀ q, q ≠ hub → t.hub q = s.hub q) ∧ t.shut = s.shut ∧ t.pcores = s.pcores ∧ t.slots = s.slots
        ∧ (h.thDiv = 16 → h.hot = true → eventAt t pgTherm 2 = true)
        ∧ (h.hot = false → h.cool = true → h.thDiv = 15 → eventAt t pgTherm 3 = true))
    ∧ (¬(h.rateDiv < 16 ∧ 16 * riseHold s ≤ h.calm ∧ h.cool = true) → exec (.rateDividerStep hub) s = .next s)
    ∧ (h.rateDiv < 16 → 16 * riseHold s ≤ h.calm → h.cool = true → ∃ t, exec (.rateDividerStep hub) s = .next t
        ∧ t.hub hub = { h with rateDiv := h.rateDiv + 1, holding := false } ∧ dividerFollows s t hub
        ∧ (∀ q, q ≠ hub → t.hub q = s.hub q) ∧ t.pcores = s.pcores ∧ t.slots = s.slots))
  ∧ (∀ (r side : Nat) (s : State), r < 8 →
    let x := s.region r
    (x.divNext = none → exec (.crossingSwitchDone r) s = .next s)
    ∧ (∀ d c, x.divNext = some (d, c) → ∃ t, exec (.crossingSwitchDone r) s = .next t
        ∧ dividerFollows (s.setRegion r { x with div := d, src := c, divNext := none }) t r ∧ eventAt t (pgRegion r) 2 = true
        ∧ t.therm = s.therm ∧ t.pcores = s.pcores)
    ∧ (neighbour r side = none → exec (.crossingMesochronous r side) s = .next s)
    ∧ (∀ n k, neighbour r side = some (n, k) →
        let y := s.region n
        ((x.div ≠ y.div ∨ x.divNext ≠ none ∨ y.divNext ≠ none ∨ x.side side = false) → exec (.crossingMesochronous r side) s = .next s)
        ∧ (x.div = y.div → x.divNext = none → y.divNext = none → x.side side = true → ∃ t,
            exec (.crossingMesochronous r side) s = .next t ∧ eventAt t (pgRegion r) 1 = true ∧ eventAt t (pgRegion n) 1 = true
            ∧ OnlyEvents ((s.setRegion r { x.setSide side false with count := min (x.count + k) (2 ^ 16 - 1) }).setRegion n
                { y.setSide (facing side) false with count := min (y.count + k) (2 ^ 16 - 1) }) t)))
  ∧ (∀ (ext int : Bool) (s : State),
    (exec (.leakDetected false false) s = .next { s with therm := { s.therm with leakExt := false, leakInt := false } })
    ∧ ((ext || int) = true → ∃ t, exec (.leakDetected ext int) s = .next t ∧ isShut t ∧ t.pins.regulators = false
        ∧ t.therm.leakLatched = true ∧ t.therm.leakExt = ext ∧ t.therm.leakInt = int ∧ t.hostOut = s.hostOut ∧ t.sec = s.sec
        ∧ (s.shut = false → t.therm.shutSensor = 510 ∧ t.therm.shutValid = true
            ∧ (t.therm.shutTemp : Int) = max 0 (min 4095 s.therm.maxTemp))
        ∧ (s.shut = true → t.therm.shutSensor = s.therm.shutSensor ∧ t.therm.shutTemp = s.therm.shutTemp)))

/-- POWER_AVERAGE, FLOW_UPDATE, FLOW_PULSE_EDGE and HBM_CE_RATE_CHECK (spec/16_thermal.md, spec/19_module_interface.md, spec/18_register_conventions.md). -/
def Obligations.PowerCapFlowAndMemoryErrors : Prop :=
  (∀ s : State,
    let c := s.conv
    let num : Int := c.powSum * 50 * 64 * (s.chan 2).code
    let den : Int := (c.powCnt : Int) * 4096 * 2 ^ 23
    let cap : Int := if s.therm.capW = 0 then 0 else max 900 (min 1800 s.therm.capW)
    let due : Prop := tStep s ≤ s.therm.capMs + 1
    let d := s.therm.capDiv
    ∃ t, exec .powerAverage s = .next t ∧ t.conv = { c with powSum := 0, powCnt := 0 } ∧ t.freeCtr = s.freeCtr + 1
      ∧ (c.powCnt = 0 → t.therm.avgW = s.therm.avgW) ∧ t.therm.peakW = max s.therm.peakW t.therm.avgW
      ∧ (c.powCnt ≠ 0 → 0 ≤ num → num ≤ 4094 * den → ((t.therm.avgW : Int) = num / den ∨ ((t.therm.avgW : Int) = num / den + 1 ∧ num % den ≠ 0)))
      ∧ (due → 0 < cap → c.powCnt ≠ 0 → cap * den < num →
          (∃ r, r < 8 ∧ (∀ q, q < 8 → effDiv s q ≤ effDiv s r) ∧ t.therm.capDiv = max 1 (max 1 (effDiv s r) - 1))
          ∧ (d = 16 → eventAt t pgTherm 8 = true))
      ∧ (due → (cap = 0 ∨ (c.powCnt ≠ 0 ∧ num * 100 < 98 * cap * den)) → t.therm.capDiv = min 16 (d + 1)
          ∧ (d = 15 → eventAt t pgTherm 9 = true))
      ∧ (due → 0 < cap → (c.powCnt = 0 ∨ (num ≤ cap * den ∧ 98 * cap * den ≤ num * 100)) → t.therm.capDiv = d)
      ∧ (¬due → t.therm.capDiv = d ∧ t.therm.capMs = s.therm.capMs + 1) ∧ (due → t.therm.capMs = 0)
      ∧ (s.shut = false → ∀ r, r < 8 → dividerFollows s t r)
      ∧ t.therm.hubs = s.therm.hubs ∧ t.regs = s.regs ∧ t.pcores = s.pcores ∧ t.slots = s.slots ∧ t.stroke = s.stroke)
  ∧ (∀ s : State,
    let e := s.therm.edges.take 20
    let n := (e.take 10).sum * 60000
    let k := max 1 (s.field pgTherm 0x074 0 16)
    ∃ q, (q = n / k ∨ (q = n / k + 1 ∧ n % k ≠ 0)) ∧ exec .flowUpdate s = .next { s with
      freeCtr := s.freeCtr + 1
      therm := { s.therm with flowRate := min q (2 ^ 16 - 1), flowValid := decide (0 < e.sum), edges := 0 :: e.take 19 } })
  ∧ (∀ s : State, exec .flowPulseEdge s = .next { s with therm := { s.therm with
      edges := (s.therm.edges.headD 0 + 1) :: s.therm.edges.tail } })
  ∧ (∀ (k : Nat) (s : State),
    let calm := s.setStack k { s.stack k with ceSecond := 0 }
    ((s.stack k).ceSecond ≤ max 1 (s.field (pgHbm k) 0x058 0 16) → exec (.hbmCeRateCheck k) s = .next calm)
    ∧ (max 1 (s.field (pgHbm k) 0x058 0 16) < (s.stack k).ceSecond → ∃ t, exec (.hbmCeRateCheck k) s = .next t
        ∧ eventAt t (pgHbm k) 1 = true ∧ OnlyEvents calm t))

/-- REF_EN_WRITE, REF_READY, GROUP_DUE, CAL_ZERO, CAL_FULL, CAL_ABANDON and CAL_FULL_TIMEOUT (spec/17_housekeeping_converter.md). -/
def Obligations.ConverterOrdersAndReference : Prop :=
  let failed (t u : State) (cal : ConvCal) (why : Nat) : Prop := eventAt u pgConv 5 = true ∧ OnlyEvents
    { t.setChan cal.chan { t.chan cal.chan with calHold := false } with
      conv := { (t.setChan cal.chan { t.chan cal.chan with calHold := false }).conv with
        cal := { cal with busy := false, zero := none, pass := false, why := why } } } u
  (∀ (src : Nat) (w : W32) (s : State),
    (canWrite s src pgConv = false → exec (.refEnWrite src w) s = .next s)
    ∧ (canWrite s src pgConv = true →
      (w.getLsbD 0 = true → exec (.refEnWrite src w) s = .next { s with conv := { s.conv with en := true } })
      ∧ (w.getLsbD 0 = false → s.bring.doneMap.testBit 3 = true → exec (.refEnWrite src w) s = .next s)
      ∧ (w.getLsbD 0 = false → s.bring.doneMap.testBit 3 = false →
          exec (.refEnWrite src w) s = .next { s with conv := { s.conv with en := false, ready := false } }))
    ∧ ((s.conv.en = false ∨ s.conv.ready = true) → exec .refReady s = .next s)
    ∧ (s.conv.en = true → s.conv.ready = false → ∃ t, exec .refReady s = .next t ∧ t.conv.ready = true ∧ eventAt t pgConv 0 = true
        ∧ OnlyEvents { s with conv := t.conv } t ∧ t.conv.chans = s.conv.chans
        ∧ (∀ m, m < 4 → (s.modulator m).chan = none → (t.modulator m).chan = (servedBy s m).head?)))
  ∧ (∀ (g : Nat) (s : State),
    let chans := groupChans s g
    let interval := s.field pgConv (0x048 + 4 * g) 20 8 + 1
    let live := chans.filter (fun n => !calibrating s n)
    ((1 < g ∨ chans = [] ∨ strokesRun s = false ∨ s.stroke.number % interval ≠ 0) → exec (.groupDue g) s = .next s)
    ∧ (g ≤ 1 → chans ≠ [] → strokesRun s = true → s.stroke.number % interval = 0 →
      (Tbl.getD s.conv.groups g [] ≠ [] → ∃ t, exec (.groupDue g) s = .next t ∧ eventAt t pgConv 3 = true ∧ OnlyEvents s t)
      ∧ (Tbl.getD s.conv.groups g [] = [] → ∃ t, exec (.groupDue g) s = .next t ∧ Tbl.getD t.conv.groups g [] = live
          ∧ OnlyEvents { s with conv := t.conv } t ∧ (live = [] → eventAt t pgConv 2 = true)
          ∧ t.conv.early = (if s.conv.ready then s.conv.early else min (s.conv.early + live.length) (2 ^ 16 - 1))
          ∧ (∀ n, n ∈ live → 16 ≤ n → (t.chan n).sum = 0 ∧ (t.chan n).count = 0)
          ∧ (∀ n, n ∉ chans → t.chan n = s.chan n))))
  ∧ (∀ (src n : Nat) (s : State), canWrite s src pgConv = true → n < 20 →
    let k := s.conv.cal
    let t0 (op : Nat) : State := (disarm s src pgConv).setReg pgConv 0x054 (BitVec.ofNat 32 (n + 32 * op))
    let orders : List (Instr × Nat) := [(.calZero src n, 1), (.calFull src n, 2), (.calAbandon src n, 3)]
    (armed s src pgConv = false → ∀ o ∈ orders, exec o.1 s = .next (capture s pgConv 0x054 1 true
        (BitVec.ofNat 64 (n + 32 * o.2 + 2 ^ 31)) src))
    ∧ (armed s src pgConv = true →
      (k.busy = true → exec (.calZero src n) s = .next (t0 1) ∧ exec (.calFull src n) s = .next (t0 2))
      ∧ (k.busy = false → k.zero = none → 12 ≤ n → n < 16 → ∃ t, exec (.calZero src n) s = .next t
          ∧ failed (t0 1) t { k with chan := n, op := 1, why := 0 } 3)
      ∧ (k.busy = false → (n < 12 ∨ 16 ≤ n) → ∃ t, exec (.calZero src n) s = .next t ∧ t.conv.cal = { k with
            chan := n, op := 1, zero := none, why := 0, busy := true } ∧ (t.chan n).calHold = true
          ∧ (t.chan n).zero = (s.chan n).zero ∧ (t.chan n).gainNum = (s.chan n).gainNum ∧ OnlyEvents { t0 1 with conv := t.conv } t
          ∧ (∀ g < 2, n ∉ Tbl.getD t.conv.groups g []))
      ∧ (k.busy = false → 12 ≤ n → n < 16 → ∃ t, exec (.calFull src n) s = .next t ∧ failed (t0 2) t { k with chan := n } 3)
      ∧ (k.busy = false → (n < 12 ∨ 16 ≤ n) → (k.zero = none ∨ k.chan ≠ n) → ∃ t, exec (.calFull src n) s = .next t
          ∧ failed (t0 2) t { k with chan := n } 5)
      ∧ (k.busy = false → (n < 12 ∨ 16 ≤ n) → k.zero ≠ none → k.chan = n →
          exec (.calFull src n) s = .next { t0 2 with conv := { s.conv with cal := { k with busy := true, op := 2 } } })
      ∧ (∃ t, exec (.calAbandon src n) s = .next t ∧ t = { t0 3 with conv := t.conv } ∧ (t.chan k.chan).calHold = false
          ∧ t.conv.cal = { k with busy := false, zero := none } ∧ (t.chan k.chan).zero = (s.chan k.chan).zero
          ∧ (t.chan k.chan).gainNum = (s.chan k.chan).gainNum ∧ (∀ m, m ≠ k.chan → t.chan m = s.chan m))))
  ∧ (∀ s : State,
    ((s.conv.cal.zero = none ∨ s.conv.cal.busy = true) → exec .calFullTimeout s = .next s)
    ∧ (s.conv.cal.zero ≠ none → s.conv.cal.busy = false → ∃ t, exec .calFullTimeout s = .next t ∧ failed s t s.conv.cal 2))

/-- PRECISION_CONVERSION_DONE, SAR_SAMPLE, CONV_CAL_MEASURE_DONE and SELF_CHECK (spec/17_housekeeping_converter.md). -/
def Obligations.ConversionsAndCalibrationsComplete : Prop :=
  let wrote (s t : State) (n : Nat) (code : Int) (off stroke : Nat) : Prop :=
    (t.chan n).code = code ∧ (t.chan n).valid = true ∧ (t.chan n).stampOff = off ∧ (t.chan n).stampStroke = stroke
      ∧ (2 ≤ n → (t.chan n).limLo = decide ((if n < 16 then code / 256 else code) < limLow s n)
          ∧ (t.chan n).limHi = decide (limHigh s n < (if n < 16 then code / 256 else code)))
      ∧ (((t.chan n).limLo = true ∧ (s.chan n).limLo = false) ∨ ((t.chan n).limHi = true ∧ (s.chan n).limHi = false) →
          eventAt t pgConv 1 = true)
      ∧ (t.chan n).zero = (s.chan n).zero ∧ (t.chan n).gainNum = (s.chan n).gainNum ∧ (t.chan n).sysCal = (s.chan n).sysCal
      ∧ OnlyEvents { s with conv := t.conv, freeCtr := s.freeCtr + 1 } t
  (∀ (m : Nat) (raw : Int) (s : State),
    (s.conv.ready = false → exec (.precisionConversionDone m raw) s = .next s)
    ∧ (s.conv.ready = true → (s.modulator m).chan = none → ∃ t, exec (.precisionConversionDone m raw) s = .next t
        ∧ t = { s with conv := t.conv } ∧ t.conv.chans = s.conv.chans ∧ (t.modulator m).chan = (servedBy s m).head?)
    ∧ (∀ n, s.conv.ready = true → (s.modulator m).chan = some n → n < 16 →
        let code := corrected (s.chan n) raw
        code < 2 ^ 23 → -(2 ^ 23) ≤ code → ∃ t, exec (.precisionConversionDone m raw) s = .next t
          ∧ wrote s t n code (s.modulator m).off (s.modulator m).stroke
          ∧ (∀ q, q ≠ n → t.chan q = s.chan q)
          ∧ (∀ c g, (s.modulator m).queued = some (c, g) → (t.modulator m).chan = some c ∧ (t.modulator m).group = some g)
          ∧ ((s.modulator m).queued = none → (s.modulator m).resume = none → (t.modulator m).chan = nextServed s m n)
          ∧ (∀ g, (s.modulator m).group = some g → Tbl.getD t.conv.groups g [] = (Tbl.getD s.conv.groups g []).filter (· != n))))
  ∧ (∀ (k : Nat) (raw : Int) (s : State),
    let n := 16 + k
    let v := corrected (s.chan n) raw
    let listed := if groupSampling s = [] then (s.reg pgConv 0x044).getLsbD n else (groupSampling s).contains n
    let low := k < 2 ∧ v < (s.field pgConv 0x064 6 12 : Int)
    ((3 < k ∨ calibrating s n = true ∨ (listed = false ∧ k ≠ 2)) → exec (.sarSample k raw) s = .next s)
    ∧ (k ≤ 3 → calibrating s n = false → (listed = true ∨ k = 2) →
      (s.conv.ready = false → exec (.sarSample k raw) s = .next { s with conv := { s.conv with early := min (s.conv.early + 1) (2 ^ 16 - 1) } })
      ∧ (s.conv.ready = true → ((k = 0 ∧ 0 < s.conv.skipA) ∨ (k = 1 ∧ 0 < s.conv.skipB)) → ∃ t, exec (.sarSample k raw) s = .next t
          ∧ t = { s with conv := { s.conv with skipA := t.conv.skipA, skipB := t.conv.skipB } } ∧ t.conv.skipA + t.conv.skipB + 1 = s.conv.skipA + s.conv.skipB)
      ∧ (s.conv.ready = true → (k = 0 → s.conv.skipA = 0) → (k = 1 → s.conv.skipB = 0) → ∃ t, exec (.sarSample k raw) s = .next t
          ∧ (low → t.conv.droop = min (s.conv.droop + 1) (2 ^ 14 - 1) ∧ eventAt t pgConv 7 = true) ∧ (¬low → t.conv.droop = s.conv.droop)
          ∧ (k = 2 → t.conv.powSum = s.conv.powSum + v ∧ t.conv.powCnt = s.conv.powCnt + 1)
          ∧ (k ≠ 2 → t.conv.powSum = s.conv.powSum ∧ t.conv.powCnt = s.conv.powCnt)
          ∧ (∀ q, q ≠ n → t.chan q = s.chan q) ∧ t.regs = s.regs
          ∧ (listed = false → t.chan n = s.chan n)
          ∧ (listed = true → (s.chan n).count + 1 < avgSamples s n → (t.chan n).sum = (s.chan n).sum + v
              ∧ (t.chan n).count = (s.chan n).count + 1 ∧ (t.chan n).code = (s.chan n).code
              ∧ ((s.chan n).count = 0 → ((t.chan n).startOff, (t.chan n).startStroke) = stampNow s))
          ∧ (listed = true → avgSamples s n ≤ (s.chan n).count + 1 → 0 < (s.chan n).count →
              let code := ((s.chan n).sum + v) / 2 ^ fastShift s n
              0 ≤ code → code < 2 ^ 20 → (t.chan n).code = code ∧ (t.chan n).valid = true ∧ (t.chan n).sum = 0 ∧ (t.chan n).count = 0
                ∧ (t.chan n).stampOff = (s.chan n).startOff ∧ (t.chan n).stampStroke = (s.chan n).startStroke
                ∧ (t.chan n).limLo = decide (code < limLow s n) ∧ (t.chan n).limHi = decide (limHigh s n < code)))))
  ∧ (∀ (a b : Int) (s : State),
    let k := s.conv.cal
    let n := k.chan
    let released := s.setChan n { s.chan n with calHold := false }
    (k.busy = false → exec (.convCalMeasureDone a b) s = .next s)
    ∧ (k.busy = true → agree n a b = false → ∃ t, exec (.convCalMeasureDone a b) s = .next t ∧ eventAt t pgConv 5 = true
        ∧ OnlyEvents { released with conv := { released.conv with
            cal := { k with busy := false, zero := none, pass := false, why := 1 } } } t)
    ∧ (k.busy = true → agree n a b = true → k.op = 1 → ∃ v, min a b ≤ v ∧ v ≤ max a b ∧ exec (.convCalMeasureDone a b) s = .next { s with
        freeCtr := s.freeCtr + 1, conv := { s.conv with cal := { k with busy := false, zero := some v } } })
    ∧ (∀ z, k.busy = true → agree n a b = true → k.op ≠ 1 → k.zero = some z → ∃ v t, min a b ≤ v ∧ v ≤ max a b
        ∧ exec (.convCalMeasureDone a b) s = .next t
        ∧ (let d := (idealPoint n).2 * (v - z)
           let bad := d = 0 ∨ d.natAbs < 20 * ((idealPoint n).1 - d).natAbs
           (bad → eventAt t pgConv 5 = true ∧ t.conv.cal = { k with busy := false, zero := none, pass := false, why := 4 }
              ∧ t.chan n = { s.chan n with calHold := false })
           ∧ (¬bad → eventAt t pgConv 4 = true ∧ t.conv.cal = { k with busy := false, zero := none, pass := true, why := 0 }
              ∧ t.chan n = { s.chan n with
                zero := z, gainNum := (idealPoint n).1, gainDen := d, sysCal := true, recOk := true, calHold := false })
           ∧ (∀ q, q ≠ n → t.chan q = s.chan q))))
  ∧ (∀ (raw temp : Int) (s : State),
    let turn := s.conv.selfTurn
    let on := (s.reg pgConv 0x060).getLsbD 8 = true ∨ s.sec.lcState = 1
    let ok := selfCheckOk s turn (corrected (s.chan (12 + turn)) raw) temp
    let u : State := { s with conv := { s.conv with
      selfTurn := (turn + 1) % 4, selfFails := if ok then s.conv.selfFails else min (s.conv.selfFails + 1) 255,
      refSuspect := if turn = 0 then !ok else s.conv.refSuspect } }
    ((¬on ∨ s.conv.ready = false ∨ (s.modulator turn).group ≠ none) → exec (.selfCheck raw temp) s = .next s)
    ∧ (on → s.conv.ready = true → (s.modulator turn).group = none →
      (ok = true → exec (.selfCheck raw temp) s = .next u)
      ∧ (ok = false → ∃ t, exec (.selfCheck raw temp) s = .next t ∧ eventAt t pgConv 6 = true ∧ OnlyEvents u t)))

/-- REGISTER_WRITE, the header writes, ARM_WRITE, ARM_EXPIRE, CAPT_CLR, the reads with an effect, and WINDOW_WRITE (spec/18_register_conventions.md, spec/13_host_and_partitions.md, spec/17_housekeeping_converter.md). -/
def Obligations.RegisterPagesTakeTheirWrites : Prop :=
  (∀ (src page : Nat) (d : W32) (s : State),
    let all : List Instr := [.armWrite src page d, .intRawW1c src page d, .intForce src page d, .intEnWrite src page d,
      .irqEnWrite src page d, .captClr src page]
    (canWrite s src page = false → ∀ i ∈ all, exec i s = .next s)
    ∧ exec (.armExpire src page) s = .next (disarm s src page)
    ∧ (canWrite s src page = true →
      let pg := s.page page
      let put (x : Page) : State := s.setPage page x
      (armOffset page = none → exec (.armWrite src page d) s = .next s)
      ∧ (armOffset page ≠ none → ∃ t, exec (.armWrite src page d) s = .next t ∧ t = { s with arms := t.arms }
          ∧ armed t src page = (d == 0xC0DE#32) ∧ (∀ c q, (c, q) ≠ (src, page) → armed t c q = armed s c q))
      ∧ exec (.intRawW1c src page d) s = .next (put { pg with intRaw := pg.intRaw &&& ~~~d })
      ∧ exec (.captClr src page) s = .next (put { pg with capt := none, errOvf := false })
      ∧ (∃ t, exec (.intForce src page d) s = .next t ∧ OnlyEvents s t ∧ (t.page page).intRaw = pg.intRaw ||| (d &&& pageBits page)
          ∧ (∀ q, q ≠ page → t.page q = s.page q))
      ∧ (∀ v, pfVector page = some v → s.pf.bme = true → Tbl.getD s.pf.msixMask v true = false →
          let sent (rose : W32) : List Msg := if rose ≠ 0#32 then [{ func := 0, vector := v }] else []
          exec (.intEnWrite src page d) s = .next { put { pg with intEn := d &&& pageBits page } with
            msgs := s.msgs ++ sent (if pg.irqEn then pg.intRaw &&& (d &&& pageBits page) &&& ~~~pg.intEn else 0#32) }
          ∧ exec (.irqEnWrite src page d) s = .next { put { pg with irqEn := d.getLsbD 0 } with
              msgs := s.msgs ++ sent (if d.getLsbD 0 && !pg.irqEn then pg.intRaw &&& pg.intEn else 0#32) })))
  ∧ (∀ (src page off size : Nat) (d : W64) (s : State),
    let lo : W32 := d.extractLsb' 0 32
    let ex (o n : Nat) (x : W64) (t : State) := exec (.registerWrite src page o n x) t
    (4096 ≤ off → ex off size d s = .next s)
    ∧ (src ≠ 33 → off < 4096 → isOrder page off = false → msixFunc src page = none →
      (canWrite s src page = false → ex off 4 d s = .next s)
      ∧ (off % 8 = 0 → ∃ u, ex off 4 d s = .next u ∧ ex off 8 d s = ex (off + 4) 4 (d >>> 32) u)
      ∧ (canWrite s src page = true →
        ((¬(size = 4 ∧ off % 4 = 0) ∧ ¬(size = 8 ∧ off % 8 = 0)) →
          ex off size d s = .next (capture s page off 4 true (if size = 8 then d else lo.zeroExtend 64) src))
        ∧ (off = 0x010 → ex off 4 d s = exec (.intRawW1c src page lo) s)
        ∧ (off = 0x014 → ex off 4 d s = exec (.intEnWrite src page lo) s)
        ∧ (off = 0x018 → ex off 4 d s = exec (.intForce src page lo) s)
        ∧ (∀ typ inst, pageKind page = some (typ, inst) → 0x040 ≤ off → off % 4 = 0 →
          (regAt typ off = none → ex off 4 d s = .next (capture s page off 3 true (lo.zeroExtend 64) src))
          ∧ (∀ r n, regAt typ off = some (r, n) → r.wo = false →
            (r.rw = 0 → r.rwa = 0 → r.w1s = 0 → sidebandOnly typ off = false →
              ex off 4 d s = .next (capture s page off 2 true (lo.zeroExtend 64) src))
            ∧ (r.rwa ≠ 0 → armed s src page = false → ex off 4 d s = .next (capture s page off 1 true (lo.zeroExtend 64) src))
            ∧ (r.rwa ≠ 0 → armed s src page = true →
                ex off 4 d s = .next ((disarm s src page).setReg page off (lo &&& BitVec.ofNat 32 (r.rwa % 2 ^ 31))))
            ∧ (r.rw ≠ 0 → r.rwa = 0 → typ ∈ [3, 5, 6, 7, 13, 14, 16, 18, 20, 21] →
                ex off 4 d s = .next (s.setReg page off (lo &&& BitVec.ofNat 32 r.rw))))))))
  ∧ (∀ (src n : Nat) (s : State),
    (canRead s src pgServe = true → exec (.cancelLatRead src) s = .next { s with serve := { s.serve with cancelLat := 0 } })
    ∧ (canRead s src pgServe = false → exec (.cancelLatRead src) s = .next s)
    ∧ (canRead s src pgTherm = true → exec (.powerRead src) s = .next { s with therm := { s.therm with peakW := 0 } })
    ∧ (canRead s src pgTherm = false → exec (.powerRead src) s = .next s)
    ∧ ((canRead s src pgConv = false ∨ 20 ≤ n) → exec (.convResultRead src n) s = .next s)
    ∧ (canRead s src pgConv = true → n < 20 → exec (.convResultRead src n) s = .next { s with
        latches := Tbl.set s.latches (64 * (4096 * pgConv + 0x108 + 16 * n) + src)
          (BitVec.ofNat 32 ((s.chan n).stampOff % 2 ^ 22 + 2 ^ 22 * ((s.chan n).stampStroke % 1024))) })
    ∧ (canRead s src pgStroke = true → exec (.loReadLatch src pgStroke 0x058) s = .next { s with
        latches := Tbl.set s.latches (64 * (4096 * pgStroke + 0x05C) + src) (BitVec.ofNat 32 (s.stroke.number / 2 ^ 32)) })
    ∧ (∀ page off, (canRead s src page = false ∨ pageKind page = none ∨ ∃ typ inst, pageKind page = some (typ, inst) ∧ highHalf s typ inst off = none) →
        exec (.loReadLatch src page off) s = .next s)
    ∧ (∀ page off typ inst v, canRead s src page = true → pageKind page = some (typ, inst) → highHalf s typ inst off = some v →
        ∃ key, exec (.loReadLatch src page off) s = .next { s with latches := Tbl.set s.latches key (BitVec.ofNat 32 v) }))
  ∧ (∀ (src p0 off : Nat) (data : List Byte) (s : State),
    let p := if src = 0 then s.field pgPart 0x07C 0 5 else p0
    let base := if src = 0 then 2 ^ 20 * s.field pgPart 0x07C 5 18 else 2 ^ 20 * s.field (pgFunc p0) 0x04C 0 18
    let x := s.part p
    let inWindow := (src = 0 ∧ off < 2 ^ 30) ∨ (1 ≤ src ∧ src ≤ 32 ∧ src = p0 + 1 ∧ off < 2 ^ 25)
    ((¬inWindow ∨ x.state = .none ∨ x.state = .creating ∨ x.resetting = true ∨ s.shut = true) →
      exec (.windowWrite src p0 off data) s = .next s)
    ∧ (inWindow → x.state ≠ .none → x.state ≠ .creating → x.resetting = false → s.shut = false → Mem.wf x.scratch = true →
      ∃ m, exec (.windowWrite src p0 off data) s = .next (s.setPart p { x with scratch := m }) ∧ Mem.wf m = true
        ∧ (∀ a, Mem.read m a = if base + off ≤ a ∧ a < base + off + data.length ∧ a < 2 ^ 20 * x.cfg.scratch
            then data.getD (a - (base + off)) 0#8 else Mem.read x.scratch a)))

/-- Decoding an encoded stroke-plan instruction gives it back, and every word the loader admits is the encoding of what it decodes to (spec/07_instructions_arrays_and_data.md, spec/08_instructions_engine_and_control.md). -/
def Obligations.ScribeWordsRoundTrip : Prop :=
  (∀ (c : Opcode) (f : Fields), opOk c f = true → decodeScribe (encodeScribe c f) = some (c, f))
  ∧ (∀ (w : W64) (c : Opcode) (f : Fields), decodeScribe w = some (c, f) → opOk c f = true ∧ encodeScribe c f = w)
  ∧ (∀ (c d : Opcode) (f g : Fields), encodeScribe c f = encodeScribe d g → c = d ∧ f = g)
  ∧ (∀ w : W64, opcodeOf (w.extractLsb' 56 8).toNat = none → decodeScribe w = none)

/-- The state after a cold reset. PERST_N released and the SEALED life-cycle are the model's choices (log entries 9 and 13). -/
def Obligations.ResetLeavesTheManualsValues : Prop :=
  let s := State.reset
  s.pending = [] ∧ s.HostOk ∧ s.MemOk ∧ s.LifeOk ∧ s.CountOk ∧ s.QueueOk
  ∧ s.stroke.state = .stopped ∧ s.stroke.periodAct = 40000 ∧ s.stroke.number = 0 ∧ s.stroke.epochWritten = false
  ∧ (∀ page off typ inst, pageKind page = some (typ, inst) → s.reg page off = BitVec.ofNat 32 (regReset typ off))
  ∧ (∀ page, (s.page page).intRaw = 0#32 ∧ (s.page page).intEn = 0#32 ∧ (s.page page).irqEn = true ∧ (s.page page).capt = none)
  ∧ (∀ r, (s.region r).div = 16 ∧ (s.hub r).rateDiv = 16 ∧ (s.hub r).thDiv = 16) ∧ s.therm.capDiv = 16 ∧ s.therm.capW = 0
  ∧ (∀ p, (s.part p).state = .none ∧ (s.part p).plan = none ∧ (s.part p).job = none)
  ∧ (∀ n, (s.slot n).state = .free ∧ (s.slot n).gen = 0) ∧ (∀ h, (s.handle h).state = .free)
  ∧ (∀ k, (s.array k).resState = .empty ∧ (s.array k).eval = none ∧ (s.array k).range = 0)
  ∧ (∀ l, (s.scribe l).mode = .idle) ∧ (∀ n, (s.port n).state = .down)
  ∧ s.bring.lastDone = 0 ∧ s.bring.code = 0 ∧ s.bring.busy = false ∧ s.pins.faultN = false ∧ s.pins.health = false ∧ s.msgs = []
  ∧ s.pf.bme = false ∧ s.pf.vfEnable = false ∧ (∀ v, Tbl.getD s.pf.msixMask v true = true)
  ∧ (∀ a, Mem.read s.hostOut a = 0#8) ∧ s.pins.perstN = true ∧ s.sec.lcState = 1

/-- Every step answers a next state, keeps host memory canonical and the life-cycle legal and forward, lowers no fuse, takes one command (spec/15_security_lifecycle.md, spec/opcode_table.json). -/
def Obligations.EveryStepGoesOnAndKeepsTheInvariant : Prop :=
  ∀ s : State, s.HostOk → s.LifeOk →
    (∃ t, step s = .next t)
    ∧ (∀ t, step s = .next t →
      t.HostOk ∧ t.LifeOk
      ∧ (t.sec.lcState = s.sec.lcState ∨ (s.sec.lcState = 0 ∧ t.sec.lcState = 1) ∨ (s.sec.lcState = 1 ∧ t.sec.lcState = 2))
      ∧ s.sec.fwSvn ≤ t.sec.fwSvn ∧ s.sec.keySvn ≤ t.sec.keySvn ∧ s.sec.unlockCtr ≤ t.sec.unlockCtr
      ∧ t.pending = s.pending.tail)
end

