-- ==== Sys2Proof/Laws/AdapterPool.lean ====
section
/-! SUPPORT. What placing bytes in an adapter pool can do: the place fits beside what stands there, and one free value is used (R73, R76). -/

namespace Sys2Proof.Machine

/-- Where a place fits, the device finds one. -/
theorem poolPlace_some {s : State} {x : Part} {n a : Nat} (ha : a ∈ poolStarts x) (hf : poolFits x n a = true) :
    ∃ o, poolPlace s x n = some (o, s.nextFree) := by
  have hm : a ∈ (poolStarts x).filter (poolFits x n) := List.mem_filter.mpr ⟨ha, hf⟩
  unfold poolPlace
  split
  · simp_all
  · dsimp only
    split
    · exact ⟨_, rfl⟩
    · exact ⟨_, rfl⟩

/-- A place that the device finds fits, and the state goes on by one free value. -/
theorem poolPlace_fits {s t : State} {x : Part} {n o : Nat} (h : poolPlace s x n = some (o, t)) :
    t = s.nextFree ∧ poolFits x n o = true := by
  unfold poolPlace at h
  split at h
  · cases h
  · rename_i b bs hb
    have hall : ∀ y ∈ b :: bs, poolFits x n y = true := fun y hy => (List.mem_filter.mp (hb ▸ hy)).2
    dsimp only at h
    split at h
    · cases h; exact ⟨rfl, ‹_›⟩
    · cases h
      refine ⟨rfl, hall _ ?_⟩
      rw [List.getD_eq_getElem _ _ (by rw [List.length_cons]; exact Nat.mod_lt _ (Nat.succ_pos _))]
      exact List.getElem_mem _

end Sys2Proof.Machine
end

