-- ==== Sys2Proof/Laws/Table.lean ====
section
/-! SUPPORT. The laws of tables and memories: what is read after a write, and that every memory operation keeps the canonical form. -/

namespace Sys2Proof.Machine

/-! ### Tables -/

@[simp] theorem Tbl.get?_nil {α : Type} (i : Nat) : Tbl.get? ([] : Tbl α) i = none := rfl

@[simp] theorem Tbl.getD_nil {α : Type} (i : Nat) (d : α) : Tbl.getD ([] : Tbl α) i d = d := rfl

@[simp] theorem Tbl.get?_set_self {α : Type} (t : Tbl α) (i : Nat) (x : α) : Tbl.get? (Tbl.set t i x) i = some x := by
  induction t with
  | nil => simp [Tbl.set, Tbl.get?]
  | cons kv rest ih =>
    obtain ⟨k, v⟩ := kv
    simp only [Tbl.set]
    split_ifs with h1 h2
    · simp [Tbl.get?]
    · simp [Tbl.get?]
    · simp [Tbl.get?, h1, h2, ih]

@[simp] theorem Tbl.get?_set_ne {α : Type} (t : Tbl α) (i j : Nat) (x : α) (h : j ≠ i) :
    Tbl.get? (Tbl.set t i x) j = Tbl.get? t j := by
  induction t with
  | nil =>
    have h' : ¬ i = j := fun e => h e.symm
    simp [Tbl.set, Tbl.get?, h']
  | cons kv rest ih =>
    obtain ⟨k, v⟩ := kv
    have h' : ¬ i = j := fun e => h e.symm
    simp only [Tbl.set]
    split_ifs with h1 h2
    · subst h1
      simp [Tbl.get?, h']
    · by_cases hj : j < i
      · have hk : ¬ k = j := by omega
        have hk' : j < k := by omega
        simp [Tbl.get?, h', hj, hk, hk']
      · simp [Tbl.get?, h', hj]
    · simp [Tbl.get?, ih]

@[simp] theorem Tbl.getD_set_self {α : Type} (t : Tbl α) (i : Nat) (x d : α) : Tbl.getD (Tbl.set t i x) i d = x := by
  simp [Tbl.getD]

@[simp] theorem Tbl.getD_set_ne {α : Type} (t : Tbl α) (i j : Nat) (x d : α) (h : j ≠ i) :
    Tbl.getD (Tbl.set t i x) j d = Tbl.getD t j d := by
  simp [Tbl.getD, h]

/-- A second write of the same key replaces the first. -/
@[simp] theorem Tbl.set_set {α : Type} (t : Tbl α) (i : Nat) (x y : α) : Tbl.set (Tbl.set t i x) i y = Tbl.set t i y := by
  induction t with
  | nil => simp [Tbl.set]
  | cons kv rest ih =>
    obtain ⟨k, v⟩ := kv
    by_cases h1 : k = i
    · simp [Tbl.set, h1]
    · by_cases h2 : i < k
      · simp [Tbl.set, h1, h2]
      · simp [Tbl.set, h1, h2, ih]

/-! ### Memories -/

/-- Every listed address is at or above `a`. -/
def Mem.above (a : Nat) (m : Mem) : Prop := ∀ c ∈ m, a ≤ c.1

theorem Mem.wf_nil : Mem.wf [] = true := rfl

/-- The canonical form, one entry at a time. -/
theorem Mem.wf_cons (k : Nat) (v : Byte) (rest : Mem) :
    Mem.wf ((k, v) :: rest) = true ↔ v ≠ 0#8 ∧ Mem.above (k + 1) rest ∧ Mem.wf rest = true := by
  induction rest generalizing k v with
  | nil => simp [Mem.wf, Mem.above]
  | cons kv r ih =>
    obtain ⟨k', v'⟩ := kv
    constructor
    · intro h
      simp only [Mem.wf, Bool.and_eq_true, bne_iff_ne, ne_eq, decide_eq_true_eq] at h
      obtain ⟨⟨h1, h2⟩, h3⟩ := h
      refine ⟨h1, ?_, h3⟩
      have h4 := ((ih k' v').mp h3).2.1
      intro c hc
      rcases List.mem_cons.mp hc with rfl | hc
      · exact h2
      · have := h4 c hc
        omega
    · rintro ⟨h1, h2, h3⟩
      have := h2 (k', v') (by simp)
      simp only [Mem.wf, Bool.and_eq_true, bne_iff_ne, ne_eq, decide_eq_true_eq]
      exact ⟨⟨h1, this⟩, h3⟩

theorem Mem.wf_tail {c : Host.Cell} {rest : Mem} (h : Mem.wf (c :: rest) = true) : Mem.wf rest = true :=
  ((Mem.wf_cons c.1 c.2 rest).mp h).2.2

theorem Mem.read_above {m : Mem} {a : Nat} (h : Mem.above (a + 1) m) : Mem.read m a = 0#8 := by
  cases m with
  | nil => rfl
  | cons c rest =>
    obtain ⟨k, v⟩ := c
    have := h (k, v) (by simp)
    have h1 : ¬ k = a := by simp at this; omega
    have h2 : a < k := by simp at this; omega
    simp [Mem.read, h1, h2]

theorem Mem.above_clear {m : Mem} {a b : Nat} (h : Mem.above b m) : Mem.above b (Mem.clear m a) := by
  induction m with
  | nil => exact h
  | cons c rest ih =>
    obtain ⟨k, v⟩ := c
    have hr : Mem.above b rest := fun d hd => h d (by simp [hd])
    simp only [Mem.clear]
    split_ifs
    · exact hr
    · exact h
    · intro d hd
      rcases List.mem_cons.mp hd with rfl | hd
      · exact h _ (by simp)
      · exact ih hr d hd

theorem Mem.above_put {m : Mem} {a b : Nat} {x : Byte} (h : Mem.above b m) (hb : b ≤ a) : Mem.above b (Mem.put m a x) := by
  induction m with
  | nil => intro d hd; simp [Mem.put] at hd; subst hd; exact hb
  | cons c rest ih =>
    obtain ⟨k, v⟩ := c
    have hr : Mem.above b rest := fun d hd => h d (by simp [hd])
    simp only [Mem.put]
    split_ifs
    · intro d hd
      rcases List.mem_cons.mp hd with rfl | hd
      · exact hb
      · exact hr d hd
    · intro d hd
      rcases List.mem_cons.mp hd with rfl | hd
      · exact hb
      · exact h d hd
    · intro d hd
      rcases List.mem_cons.mp hd with rfl | hd
      · exact h _ (by simp)
      · exact ih hr d hd

theorem Mem.wf_clear {m : Mem} (a : Nat) (h : Mem.wf m = true) : Mem.wf (Mem.clear m a) = true := by
  induction m with
  | nil => exact h
  | cons c rest ih =>
    obtain ⟨k, v⟩ := c
    obtain ⟨h1, h2, h3⟩ := (Mem.wf_cons k v rest).mp h
    simp only [Mem.clear]
    split_ifs
    · exact h3
    · exact h
    · exact (Mem.wf_cons k v _).mpr ⟨h1, Mem.above_clear h2, ih h3⟩

theorem Mem.wf_put {m : Mem} (a : Nat) {x : Byte} (hx : x ≠ 0#8) (h : Mem.wf m = true) : Mem.wf (Mem.put m a x) = true := by
  induction m with
  | nil => simp [Mem.put, Mem.wf, hx]
  | cons c rest ih =>
    obtain ⟨k, v⟩ := c
    obtain ⟨h1, h2, h3⟩ := (Mem.wf_cons k v rest).mp h
    simp only [Mem.put]
    split_ifs with e1 e2
    · subst e1
      exact (Mem.wf_cons k x rest).mpr ⟨hx, h2, h3⟩
    · refine (Mem.wf_cons a x _).mpr ⟨hx, ?_, h⟩
      intro d hd
      rcases List.mem_cons.mp hd with rfl | hd
      · exact e2
      · have := h2 d hd
        omega
    · exact (Mem.wf_cons k v _).mpr ⟨h1, Mem.above_put h2 (by omega), ih h3⟩

/-- A write keeps the canonical form. -/
theorem Mem.wf_write {m : Mem} (a : Nat) (x : Byte) (h : Mem.wf m = true) : Mem.wf (Mem.write m a x) = true := by
  unfold Mem.write
  split_ifs with hx
  · exact Mem.wf_clear a h
  · exact Mem.wf_put a hx h

/-- Writing bytes keeps the canonical form. -/
theorem Mem.wf_writeBytes {m : Mem} (a : Nat) (bs : List Byte) (h : Mem.wf m = true) :
    Mem.wf (Mem.writeBytes m a bs) = true := by
  induction bs generalizing m a with
  | nil => exact h
  | cons b bs ih => exact ih (a + 1) (Mem.wf_write a b h)

theorem Mem.read_put (m : Mem) (a j : Nat) (x : Byte) :
    Mem.read (Mem.put m a x) j = if j = a then x else Mem.read m j := by
  induction m with
  | nil =>
    by_cases hj : j = a
    · subst hj; simp [Mem.put, Mem.read]
    · have : ¬ a = j := fun e => hj e.symm
      simp [Mem.put, Mem.read, this, hj]
  | cons c rest ih =>
    obtain ⟨k, v⟩ := c
    by_cases hj : j = a
    · subst hj
      rw [if_pos rfl] at ih ⊢
      by_cases h1 : k = j
      · simp [Mem.put, Mem.read, h1]
      · by_cases h2 : j < k
        · simp [Mem.put, Mem.read, h1, h2]
        · simp [Mem.put, Mem.read, h1, h2, ih]
    · rw [if_neg hj] at ih ⊢
      have hj' : ¬ a = j := fun e => hj e.symm
      by_cases h1 : k = a
      · subst h1; simp [Mem.put, Mem.read, hj']
      · by_cases h2 : a < k
        · by_cases h3 : j < a
          · have h4 : ¬ k = j := by omega
            have h5 : j < k := by omega
            simp [Mem.put, Mem.read, h1, h2, hj', h3, h4, h5]
          · simp [Mem.put, Mem.read, h1, h2, hj', h3]
        · simp [Mem.put, Mem.read, h1, h2, ih]

theorem Mem.read_clear {m : Mem} (a j : Nat) (h : Mem.wf m = true) :
    Mem.read (Mem.clear m a) j = if j = a then 0#8 else Mem.read m j := by
  induction m with
  | nil => simp [Mem.clear, Mem.read]
  | cons c rest ih =>
    obtain ⟨k, v⟩ := c
    obtain ⟨-, h2, h3⟩ := (Mem.wf_cons k v rest).mp h
    have ih := ih h3
    by_cases hj : j = a
    · subst hj
      rw [if_pos rfl] at ih ⊢
      by_cases h4 : k = j
      · subst h4; simp [Mem.clear, Mem.read_above h2]
      · by_cases h5 : j < k
        · simp [Mem.clear, Mem.read, h4, h5]
        · simp [Mem.clear, Mem.read, h4, h5, ih]
    · rw [if_neg hj] at ih ⊢
      by_cases h4 : k = a
      · subst h4
        have hk : ¬ k = j := fun e => hj e.symm
        by_cases h6 : j < k
        · have : Mem.above (j + 1) rest := fun d hd => by have := h2 d hd; omega
          simp [Mem.clear, Mem.read, hk, h6, Mem.read_above this]
        · simp [Mem.clear, Mem.read, hk, h6]
      · by_cases h5 : a < k
        · simp [Mem.clear, h4, h5]
        · simp [Mem.clear, Mem.read, h4, h5, ih]

/-- A read after a write: the byte written, or what stood there. -/
theorem Mem.read_write {m : Mem} (a j : Nat) (x : Byte) (h : Mem.wf m = true) :
    Mem.read (Mem.write m a x) j = if j = a then x else Mem.read m j := by
  unfold Mem.write
  split_ifs with hx hj hj
  · subst hx; subst hj; simp [Mem.read_clear _ _ h]
  · simp [Mem.read_clear _ _ h, hj]
  · simp [Mem.read_put, hj]
  · simp [Mem.read_put, hj]

/-- A read after writing bytes: the byte of the list, or what stood there. -/
theorem Mem.read_writeBytes {m : Mem} (a j : Nat) (bs : List Byte) (h : Mem.wf m = true) :
    Mem.read (Mem.writeBytes m a bs) j = if a ≤ j ∧ j < a + bs.length then bs.getD (j - a) 0#8 else Mem.read m j := by
  induction bs generalizing m a with
  | nil =>
    have : ¬ (a ≤ j ∧ j < a + ([] : List Byte).length) := by simp
    simp only [Mem.writeBytes, if_neg this]
  | cons b bs ih =>
    simp only [Mem.writeBytes]
    rw [ih (a + 1) (Mem.wf_write a b h), Mem.read_write a j b h]
    by_cases hj : j = a
    · subst hj
      simp
    · by_cases h1 : a + 1 ≤ j ∧ j < a + 1 + bs.length
      · have h2 : a ≤ j ∧ j < a + (b :: bs).length := by simp only [List.length_cons]; omega
        have h3 : j - a = (j - (a + 1)) + 1 := by omega
        simp only [if_pos h1, if_pos h2, h3, List.getD_cons_succ]
      · have h2 : ¬ (a ≤ j ∧ j < a + (b :: bs).length) := by simp only [List.length_cons]; omega
        simp only [if_neg h1, if_neg h2, if_neg hj]

@[simp] theorem Mem.length_readBytes (m : Mem) (a n : Nat) : (Mem.readBytes m a n).length = n := by simp [Mem.readBytes]

end Sys2Proof.Machine
end

