-- ==== Sys2Proof/Laws/Events.lean ====
section
/-! SUPPORT. What raising events can do: `INT_RAW` bits rise, messages are sent or held as pending, and nothing else changes. -/

namespace Sys2Proof.Machine

theorem OnlyEvents.refl (s : State) : OnlyEvents s s := ⟨rfl, fun _ => rfl, fun _ => rfl⟩

theorem OnlyEvents.trans {s t u : State} (h1 : OnlyEvents s t) (h2 : OnlyEvents t u) : OnlyEvents s u := by
  obtain ⟨a1, b1, c1⟩ := h1
  obtain ⟨a2, b2, c2⟩ := h2
  refine ⟨?_, fun p => ?_, fun n => ?_⟩
  · rw [a2, a1]
  · rw [b2 p, b1 p]
  · rw [c2 n, c1 n]

theorem setPage_onlyEvents (s : State) (n : Nat) (w : W32) :
    OnlyEvents s (s.setPage n { s.page n with intRaw := w }) := by
  refine ⟨rfl, fun _ => rfl, fun k => ?_⟩
  by_cases h : k = n
  · subst h; simp [State.page, State.setPage]
  · simp [State.page, State.setPage, h]

theorem setPend_onlyEvents (s : State) (p : Nat) (v : Tbl Bool) :
    OnlyEvents s (s.setPart p { s.part p with msixPend := v }) := by
  refine ⟨rfl, fun k => ?_, fun _ => rfl⟩
  by_cases h : k = p
  · subst h; simp [State.part, State.setPart]
  · simp [State.part, State.setPart, h]

theorem sendMsg_onlyEvents (s : State) (fv : Nat × Nat) : OnlyEvents s (sendMsg s fv) := by
  unfold sendMsg
  simp only
  split_ifs
  all_goals first
    | exact setPend_onlyEvents s _ _
    | exact ⟨rfl, fun _ => rfl, fun _ => rfl⟩

theorem setRaw_onlyEvents (acc : State × List (Nat × Nat)) (pb : Nat × Nat) : OnlyEvents acc.1 (setRaw acc pb).1 := by
  unfold setRaw
  exact setPage_onlyEvents _ _ _

theorem foldl_setRaw_onlyEvents (evs : List (Nat × Nat)) (acc : State × List (Nat × Nat)) :
    OnlyEvents acc.1 (evs.foldl setRaw acc).1 := by
  induction evs generalizing acc with
  | nil => exact OnlyEvents.refl _
  | cons e es ih => exact (setRaw_onlyEvents acc e).trans (ih _)

theorem foldl_sendMsg_onlyEvents (ms : List (Nat × Nat)) (s : State) : OnlyEvents s (ms.foldl sendMsg s) := by
  induction ms generalizing s with
  | nil => exact OnlyEvents.refl _
  | cons e es ih => exact (sendMsg_onlyEvents s e).trans (ih _)

/-- Raising events does nothing else. -/
theorem raiseAll_onlyEvents (s : State) (evs : List (Nat × Nat)) : OnlyEvents s (raiseAll s evs) :=
  (foldl_setRaw_onlyEvents evs (s, [])).trans (foldl_sendMsg_onlyEvents _ _)

theorem raise_onlyEvents (s : State) (page bit : Nat) : OnlyEvents s (raise s page bit) := raiseAll_onlyEvents s _

/-! ### The bits that rise -/

@[simp] theorem sendMsg_page (s : State) (fv : Nat × Nat) (n : Nat) : (sendMsg s fv).page n = s.page n := by
  unfold sendMsg
  simp only
  split_ifs <;> rfl

@[simp] theorem foldl_sendMsg_page (ms : List (Nat × Nat)) (s : State) (n : Nat) : (ms.foldl sendMsg s).page n = s.page n := by
  induction ms generalizing s with
  | nil => rfl
  | cons e es ih => rw [List.foldl_cons, ih, sendMsg_page]

theorem setRaw_intRaw (acc : State × List (Nat × Nat)) (pb : Nat × Nat) (n : Nat) :
    ((setRaw acc pb).1.page n).intRaw
      = if n = pb.1 then (acc.1.page n).intRaw ||| BitVec.ofNat 32 pb.2 else (acc.1.page n).intRaw := by
  unfold setRaw
  split_ifs with h
  · subst h; simp [State.page, State.setPage]
  · simp [State.page, State.setPage, h]

/-- A bit of `INT_RAW` that is set stays set while events are raised. -/
theorem foldl_setRaw_keeps (evs : List (Nat × Nat)) (acc : State × List (Nat × Nat)) (n b : Nat)
    (h : (acc.1.page n).intRaw.getLsbD b = true) : ((evs.foldl setRaw acc).1.page n).intRaw.getLsbD b = true := by
  induction evs generalizing acc with
  | nil => exact h
  | cons e es ih =>
    apply ih
    rw [setRaw_intRaw]
    split_ifs
    · simp [h]
    · exact h

/-- An event that is raised stands in `INT_RAW`. -/
theorem raise_event (s : State) (page bit : Nat) (h : bit < 32) : eventAt (raise s page bit) page bit = true := by
  unfold eventAt raise raiseAll
  simp only [List.foldl_cons, List.foldl_nil]
  rw [foldl_sendMsg_page, setRaw_intRaw]
  rw [if_pos rfl, BitVec.getLsbD_or, BitVec.getLsbD_ofNat]
  simp [h, Nat.testBit_two_pow_self]

end Sys2Proof.Machine
end

