-- ==== Sys2Proof/Laws/State.lean ====
section
/-! SUPPORT. What each update of the state leaves alone, by `rfl`, and what an accessor reads after it: no later proof unfolds an
update. -/

namespace Sys2Proof.Machine

/-! ### Fields that an update leaves alone -/

@[simp] theorem State.setArray_pending (s : State) (k : Nat) (x : ArrayUnit) : (s.setArray k x).pending = s.pending := rfl
@[simp] theorem State.setArray_pcores (s : State) (k : Nat) (x : ArrayUnit) : (s.setArray k x).pcores = s.pcores := rfl
@[simp] theorem State.setArray_remap (s : State) (k : Nat) (x : ArrayUnit) : (s.setArray k x).remap = s.remap := rfl
@[simp] theorem State.setArray_mesh (s : State) (k : Nat) (x : ArrayUnit) : (s.setArray k x).mesh = s.mesh := rfl
@[simp] theorem State.setArray_slotsLig (s : State) (k : Nat) (x : ArrayUnit) : (s.setArray k x).slotsLig = s.slotsLig := rfl
@[simp] theorem State.setArray_vcBuf (s : State) (k : Nat) (x : ArrayUnit) : (s.setArray k x).vcBuf = s.vcBuf := rfl
@[simp] theorem State.setArray_regions (s : State) (k : Nat) (x : ArrayUnit) : (s.setArray k x).regions = s.regions := rfl
@[simp] theorem State.setArray_scribes (s : State) (k : Nat) (x : ArrayUnit) : (s.setArray k x).scribes = s.scribes := rfl
@[simp] theorem State.setArray_slots (s : State) (k : Nat) (x : ArrayUnit) : (s.setArray k x).slots = s.slots := rfl
@[simp] theorem State.setArray_handles (s : State) (k : Nat) (x : ArrayUnit) : (s.setArray k x).handles = s.handles := rfl
@[simp] theorem State.setArray_parts (s : State) (k : Nat) (x : ArrayUnit) : (s.setArray k x).parts = s.parts := rfl
@[simp] theorem State.setArray_partOrders (s : State) (k : Nat) (x : ArrayUnit) : (s.setArray k x).partOrders = s.partOrders := rfl
@[simp] theorem State.setArray_weight (s : State) (k : Nat) (x : ArrayUnit) : (s.setArray k x).weight = s.weight := rfl
@[simp] theorem State.setArray_cal (s : State) (k : Nat) (x : ArrayUnit) : (s.setArray k x).cal = s.cal := rfl
@[simp] theorem State.setArray_ports (s : State) (k : Nat) (x : ArrayUnit) : (s.setArray k x).ports = s.ports := rfl
@[simp] theorem State.setArray_link (s : State) (k : Nat) (x : ArrayUnit) : (s.setArray k x).link = s.link := rfl
@[simp] theorem State.setArray_integ (s : State) (k : Nat) (x : ArrayUnit) : (s.setArray k x).integ = s.integ := rfl
@[simp] theorem State.setArray_bring (s : State) (k : Nat) (x : ArrayUnit) : (s.setArray k x).bring = s.bring := rfl
@[simp] theorem State.setArray_clock (s : State) (k : Nat) (x : ArrayUnit) : (s.setArray k x).clock = s.clock := rfl
@[simp] theorem State.setArray_sec (s : State) (k : Nat) (x : ArrayUnit) : (s.setArray k x).sec = s.sec := rfl
@[simp] theorem State.setArray_therm (s : State) (k : Nat) (x : ArrayUnit) : (s.setArray k x).therm = s.therm := rfl
@[simp] theorem State.setArray_conv (s : State) (k : Nat) (x : ArrayUnit) : (s.setArray k x).conv = s.conv := rfl
@[simp] theorem State.setArray_hbm (s : State) (k : Nat) (x : ArrayUnit) : (s.setArray k x).hbm = s.hbm := rfl
@[simp] theorem State.setArray_stroke (s : State) (k : Nat) (x : ArrayUnit) : (s.setArray k x).stroke = s.stroke := rfl
@[simp] theorem State.setArray_serve (s : State) (k : Nat) (x : ArrayUnit) : (s.setArray k x).serve = s.serve := rfl
@[simp] theorem State.setArray_pf (s : State) (k : Nat) (x : ArrayUnit) : (s.setArray k x).pf = s.pf := rfl
@[simp] theorem State.setArray_pins (s : State) (k : Nat) (x : ArrayUnit) : (s.setArray k x).pins = s.pins := rfl
@[simp] theorem State.setArray_shut (s : State) (k : Nat) (x : ArrayUnit) : (s.setArray k x).shut = s.shut := rfl
@[simp] theorem State.setArray_pages (s : State) (k : Nat) (x : ArrayUnit) : (s.setArray k x).pages = s.pages := rfl
@[simp] theorem State.setArray_regs (s : State) (k : Nat) (x : ArrayUnit) : (s.setArray k x).regs = s.regs := rfl
@[simp] theorem State.setArray_arms (s : State) (k : Nat) (x : ArrayUnit) : (s.setArray k x).arms = s.arms := rfl
@[simp] theorem State.setArray_latches (s : State) (k : Nat) (x : ArrayUnit) : (s.setArray k x).latches = s.latches := rfl
@[simp] theorem State.setArray_msgs (s : State) (k : Nat) (x : ArrayUnit) : (s.setArray k x).msgs = s.msgs := rfl
@[simp] theorem State.setArray_fuseBad (s : State) (k : Nat) (x : ArrayUnit) : (s.setArray k x).fuseBad = s.fuseBad := rfl
@[simp] theorem State.setArray_remapRec (s : State) (k : Nat) (x : ArrayUnit) : (s.setArray k x).remapRec = s.remapRec := rfl
@[simp] theorem State.setArray_hostOut (s : State) (k : Nat) (x : ArrayUnit) : (s.setArray k x).hostOut = s.hostOut := rfl
@[simp] theorem State.setArray_shown (s : State) (k : Nat) (x : ArrayUnit) : (s.setArray k x).shown = s.shown := rfl
@[simp] theorem State.setArray_freeCtr (s : State) (k : Nat) (x : ArrayUnit) : (s.setArray k x).freeCtr = s.freeCtr := rfl

@[simp] theorem State.setPcore_pending (s : State) (k : Nat) (x : PCore) : (s.setPcore k x).pending = s.pending := rfl
@[simp] theorem State.setPcore_arrays (s : State) (k : Nat) (x : PCore) : (s.setPcore k x).arrays = s.arrays := rfl
@[simp] theorem State.setPcore_remap (s : State) (k : Nat) (x : PCore) : (s.setPcore k x).remap = s.remap := rfl
@[simp] theorem State.setPcore_mesh (s : State) (k : Nat) (x : PCore) : (s.setPcore k x).mesh = s.mesh := rfl
@[simp] theorem State.setPcore_slotsLig (s : State) (k : Nat) (x : PCore) : (s.setPcore k x).slotsLig = s.slotsLig := rfl
@[simp] theorem State.setPcore_vcBuf (s : State) (k : Nat) (x : PCore) : (s.setPcore k x).vcBuf = s.vcBuf := rfl
@[simp] theorem State.setPcore_regions (s : State) (k : Nat) (x : PCore) : (s.setPcore k x).regions = s.regions := rfl
@[simp] theorem State.setPcore_scribes (s : State) (k : Nat) (x : PCore) : (s.setPcore k x).scribes = s.scribes := rfl
@[simp] theorem State.setPcore_slots (s : State) (k : Nat) (x : PCore) : (s.setPcore k x).slots = s.slots := rfl
@[simp] theorem State.setPcore_handles (s : State) (k : Nat) (x : PCore) : (s.setPcore k x).handles = s.handles := rfl
@[simp] theorem State.setPcore_parts (s : State) (k : Nat) (x : PCore) : (s.setPcore k x).parts = s.parts := rfl
@[simp] theorem State.setPcore_partOrders (s : State) (k : Nat) (x : PCore) : (s.setPcore k x).partOrders = s.partOrders := rfl
@[simp] theorem State.setPcore_weight (s : State) (k : Nat) (x : PCore) : (s.setPcore k x).weight = s.weight := rfl
@[simp] theorem State.setPcore_cal (s : State) (k : Nat) (x : PCore) : (s.setPcore k x).cal = s.cal := rfl
@[simp] theorem State.setPcore_ports (s : State) (k : Nat) (x : PCore) : (s.setPcore k x).ports = s.ports := rfl
@[simp] theorem State.setPcore_link (s : State) (k : Nat) (x : PCore) : (s.setPcore k x).link = s.link := rfl
@[simp] theorem State.setPcore_integ (s : State) (k : Nat) (x : PCore) : (s.setPcore k x).integ = s.integ := rfl
@[simp] theorem State.setPcore_bring (s : State) (k : Nat) (x : PCore) : (s.setPcore k x).bring = s.bring := rfl
@[simp] theorem State.setPcore_clock (s : State) (k : Nat) (x : PCore) : (s.setPcore k x).clock = s.clock := rfl
@[simp] theorem State.setPcore_sec (s : State) (k : Nat) (x : PCore) : (s.setPcore k x).sec = s.sec := rfl
@[simp] theorem State.setPcore_therm (s : State) (k : Nat) (x : PCore) : (s.setPcore k x).therm = s.therm := rfl
@[simp] theorem State.setPcore_conv (s : State) (k : Nat) (x : PCore) : (s.setPcore k x).conv = s.conv := rfl
@[simp] theorem State.setPcore_hbm (s : State) (k : Nat) (x : PCore) : (s.setPcore k x).hbm = s.hbm := rfl
@[simp] theorem State.setPcore_stroke (s : State) (k : Nat) (x : PCore) : (s.setPcore k x).stroke = s.stroke := rfl
@[simp] theorem State.setPcore_serve (s : State) (k : Nat) (x : PCore) : (s.setPcore k x).serve = s.serve := rfl
@[simp] theorem State.setPcore_pf (s : State) (k : Nat) (x : PCore) : (s.setPcore k x).pf = s.pf := rfl
@[simp] theorem State.setPcore_pins (s : State) (k : Nat) (x : PCore) : (s.setPcore k x).pins = s.pins := rfl
@[simp] theorem State.setPcore_shut (s : State) (k : Nat) (x : PCore) : (s.setPcore k x).shut = s.shut := rfl
@[simp] theorem State.setPcore_pages (s : State) (k : Nat) (x : PCore) : (s.setPcore k x).pages = s.pages := rfl
@[simp] theorem State.setPcore_regs (s : State) (k : Nat) (x : PCore) : (s.setPcore k x).regs = s.regs := rfl
@[simp] theorem State.setPcore_arms (s : State) (k : Nat) (x : PCore) : (s.setPcore k x).arms = s.arms := rfl
@[simp] theorem State.setPcore_latches (s : State) (k : Nat) (x : PCore) : (s.setPcore k x).latches = s.latches := rfl
@[simp] theorem State.setPcore_msgs (s : State) (k : Nat) (x : PCore) : (s.setPcore k x).msgs = s.msgs := rfl
@[simp] theorem State.setPcore_fuseBad (s : State) (k : Nat) (x : PCore) : (s.setPcore k x).fuseBad = s.fuseBad := rfl
@[simp] theorem State.setPcore_remapRec (s : State) (k : Nat) (x : PCore) : (s.setPcore k x).remapRec = s.remapRec := rfl
@[simp] theorem State.setPcore_hostOut (s : State) (k : Nat) (x : PCore) : (s.setPcore k x).hostOut = s.hostOut := rfl
@[simp] theorem State.setPcore_shown (s : State) (k : Nat) (x : PCore) : (s.setPcore k x).shown = s.shown := rfl
@[simp] theorem State.setPcore_freeCtr (s : State) (k : Nat) (x : PCore) : (s.setPcore k x).freeCtr = s.freeCtr := rfl

@[simp] theorem State.setRemap_pending (s : State) (k : Nat) (x : Remap) : (s.setRemap k x).pending = s.pending := rfl
@[simp] theorem State.setRemap_arrays (s : State) (k : Nat) (x : Remap) : (s.setRemap k x).arrays = s.arrays := rfl
@[simp] theorem State.setRemap_pcores (s : State) (k : Nat) (x : Remap) : (s.setRemap k x).pcores = s.pcores := rfl
@[simp] theorem State.setRemap_mesh (s : State) (k : Nat) (x : Remap) : (s.setRemap k x).mesh = s.mesh := rfl
@[simp] theorem State.setRemap_slotsLig (s : State) (k : Nat) (x : Remap) : (s.setRemap k x).slotsLig = s.slotsLig := rfl
@[simp] theorem State.setRemap_vcBuf (s : State) (k : Nat) (x : Remap) : (s.setRemap k x).vcBuf = s.vcBuf := rfl
@[simp] theorem State.setRemap_regions (s : State) (k : Nat) (x : Remap) : (s.setRemap k x).regions = s.regions := rfl
@[simp] theorem State.setRemap_scribes (s : State) (k : Nat) (x : Remap) : (s.setRemap k x).scribes = s.scribes := rfl
@[simp] theorem State.setRemap_slots (s : State) (k : Nat) (x : Remap) : (s.setRemap k x).slots = s.slots := rfl
@[simp] theorem State.setRemap_handles (s : State) (k : Nat) (x : Remap) : (s.setRemap k x).handles = s.handles := rfl
@[simp] theorem State.setRemap_parts (s : State) (k : Nat) (x : Remap) : (s.setRemap k x).parts = s.parts := rfl
@[simp] theorem State.setRemap_partOrders (s : State) (k : Nat) (x : Remap) : (s.setRemap k x).partOrders = s.partOrders := rfl
@[simp] theorem State.setRemap_weight (s : State) (k : Nat) (x : Remap) : (s.setRemap k x).weight = s.weight := rfl
@[simp] theorem State.setRemap_cal (s : State) (k : Nat) (x : Remap) : (s.setRemap k x).cal = s.cal := rfl
@[simp] theorem State.setRemap_ports (s : State) (k : Nat) (x : Remap) : (s.setRemap k x).ports = s.ports := rfl
@[simp] theorem State.setRemap_link (s : State) (k : Nat) (x : Remap) : (s.setRemap k x).link = s.link := rfl
@[simp] theorem State.setRemap_integ (s : State) (k : Nat) (x : Remap) : (s.setRemap k x).integ = s.integ := rfl
@[simp] theorem State.setRemap_bring (s : State) (k : Nat) (x : Remap) : (s.setRemap k x).bring = s.bring := rfl
@[simp] theorem State.setRemap_clock (s : State) (k : Nat) (x : Remap) : (s.setRemap k x).clock = s.clock := rfl
@[simp] theorem State.setRemap_sec (s : State) (k : Nat) (x : Remap) : (s.setRemap k x).sec = s.sec := rfl
@[simp] theorem State.setRemap_therm (s : State) (k : Nat) (x : Remap) : (s.setRemap k x).therm = s.therm := rfl
@[simp] theorem State.setRemap_conv (s : State) (k : Nat) (x : Remap) : (s.setRemap k x).conv = s.conv := rfl
@[simp] theorem State.setRemap_hbm (s : State) (k : Nat) (x : Remap) : (s.setRemap k x).hbm = s.hbm := rfl
@[simp] theorem State.setRemap_stroke (s : State) (k : Nat) (x : Remap) : (s.setRemap k x).stroke = s.stroke := rfl
@[simp] theorem State.setRemap_serve (s : State) (k : Nat) (x : Remap) : (s.setRemap k x).serve = s.serve := rfl
@[simp] theorem State.setRemap_pf (s : State) (k : Nat) (x : Remap) : (s.setRemap k x).pf = s.pf := rfl
@[simp] theorem State.setRemap_pins (s : State) (k : Nat) (x : Remap) : (s.setRemap k x).pins = s.pins := rfl
@[simp] theorem State.setRemap_shut (s : State) (k : Nat) (x : Remap) : (s.setRemap k x).shut = s.shut := rfl
@[simp] theorem State.setRemap_pages (s : State) (k : Nat) (x : Remap) : (s.setRemap k x).pages = s.pages := rfl
@[simp] theorem State.setRemap_regs (s : State) (k : Nat) (x : Remap) : (s.setRemap k x).regs = s.regs := rfl
@[simp] theorem State.setRemap_arms (s : State) (k : Nat) (x : Remap) : (s.setRemap k x).arms = s.arms := rfl
@[simp] theorem State.setRemap_latches (s : State) (k : Nat) (x : Remap) : (s.setRemap k x).latches = s.latches := rfl
@[simp] theorem State.setRemap_msgs (s : State) (k : Nat) (x : Remap) : (s.setRemap k x).msgs = s.msgs := rfl
@[simp] theorem State.setRemap_fuseBad (s : State) (k : Nat) (x : Remap) : (s.setRemap k x).fuseBad = s.fuseBad := rfl
@[simp] theorem State.setRemap_remapRec (s : State) (k : Nat) (x : Remap) : (s.setRemap k x).remapRec = s.remapRec := rfl
@[simp] theorem State.setRemap_hostOut (s : State) (k : Nat) (x : Remap) : (s.setRemap k x).hostOut = s.hostOut := rfl
@[simp] theorem State.setRemap_shown (s : State) (k : Nat) (x : Remap) : (s.setRemap k x).shown = s.shown := rfl
@[simp] theorem State.setRemap_freeCtr (s : State) (k : Nat) (x : Remap) : (s.setRemap k x).freeCtr = s.freeCtr := rfl

@[simp] theorem State.setRegion_pending (s : State) (k : Nat) (x : Region) : (s.setRegion k x).pending = s.pending := rfl
@[simp] theorem State.setRegion_arrays (s : State) (k : Nat) (x : Region) : (s.setRegion k x).arrays = s.arrays := rfl
@[simp] theorem State.setRegion_pcores (s : State) (k : Nat) (x : Region) : (s.setRegion k x).pcores = s.pcores := rfl
@[simp] theorem State.setRegion_remap (s : State) (k : Nat) (x : Region) : (s.setRegion k x).remap = s.remap := rfl
@[simp] theorem State.setRegion_mesh (s : State) (k : Nat) (x : Region) : (s.setRegion k x).mesh = s.mesh := rfl
@[simp] theorem State.setRegion_slotsLig (s : State) (k : Nat) (x : Region) : (s.setRegion k x).slotsLig = s.slotsLig := rfl
@[simp] theorem State.setRegion_vcBuf (s : State) (k : Nat) (x : Region) : (s.setRegion k x).vcBuf = s.vcBuf := rfl
@[simp] theorem State.setRegion_scribes (s : State) (k : Nat) (x : Region) : (s.setRegion k x).scribes = s.scribes := rfl
@[simp] theorem State.setRegion_slots (s : State) (k : Nat) (x : Region) : (s.setRegion k x).slots = s.slots := rfl
@[simp] theorem State.setRegion_handles (s : State) (k : Nat) (x : Region) : (s.setRegion k x).handles = s.handles := rfl
@[simp] theorem State.setRegion_parts (s : State) (k : Nat) (x : Region) : (s.setRegion k x).parts = s.parts := rfl
@[simp] theorem State.setRegion_partOrders (s : State) (k : Nat) (x : Region) : (s.setRegion k x).partOrders = s.partOrders := rfl
@[simp] theorem State.setRegion_weight (s : State) (k : Nat) (x : Region) : (s.setRegion k x).weight = s.weight := rfl
@[simp] theorem State.setRegion_cal (s : State) (k : Nat) (x : Region) : (s.setRegion k x).cal = s.cal := rfl
@[simp] theorem State.setRegion_ports (s : State) (k : Nat) (x : Region) : (s.setRegion k x).ports = s.ports := rfl
@[simp] theorem State.setRegion_link (s : State) (k : Nat) (x : Region) : (s.setRegion k x).link = s.link := rfl
@[simp] theorem State.setRegion_integ (s : State) (k : Nat) (x : Region) : (s.setRegion k x).integ = s.integ := rfl
@[simp] theorem State.setRegion_bring (s : State) (k : Nat) (x : Region) : (s.setRegion k x).bring = s.bring := rfl
@[simp] theorem State.setRegion_clock (s : State) (k : Nat) (x : Region) : (s.setRegion k x).clock = s.clock := rfl
@[simp] theorem State.setRegion_sec (s : State) (k : Nat) (x : Region) : (s.setRegion k x).sec = s.sec := rfl
@[simp] theorem State.setRegion_therm (s : State) (k : Nat) (x : Region) : (s.setRegion k x).therm = s.therm := rfl
@[simp] theorem State.setRegion_conv (s : State) (k : Nat) (x : Region) : (s.setRegion k x).conv = s.conv := rfl
@[simp] theorem State.setRegion_hbm (s : State) (k : Nat) (x : Region) : (s.setRegion k x).hbm = s.hbm := rfl
@[simp] theorem State.setRegion_stroke (s : State) (k : Nat) (x : Region) : (s.setRegion k x).stroke = s.stroke := rfl
@[simp] theorem State.setRegion_serve (s : State) (k : Nat) (x : Region) : (s.setRegion k x).serve = s.serve := rfl
@[simp] theorem State.setRegion_pf (s : State) (k : Nat) (x : Region) : (s.setRegion k x).pf = s.pf := rfl
@[simp] theorem State.setRegion_pins (s : State) (k : Nat) (x : Region) : (s.setRegion k x).pins = s.pins := rfl
@[simp] theorem State.setRegion_shut (s : State) (k : Nat) (x : Region) : (s.setRegion k x).shut = s.shut := rfl
@[simp] theorem State.setRegion_pages (s : State) (k : Nat) (x : Region) : (s.setRegion k x).pages = s.pages := rfl
@[simp] theorem State.setRegion_regs (s : State) (k : Nat) (x : Region) : (s.setRegion k x).regs = s.regs := rfl
@[simp] theorem State.setRegion_arms (s : State) (k : Nat) (x : Region) : (s.setRegion k x).arms = s.arms := rfl
@[simp] theorem State.setRegion_latches (s : State) (k : Nat) (x : Region) : (s.setRegion k x).latches = s.latches := rfl
@[simp] theorem State.setRegion_msgs (s : State) (k : Nat) (x : Region) : (s.setRegion k x).msgs = s.msgs := rfl
@[simp] theorem State.setRegion_fuseBad (s : State) (k : Nat) (x : Region) : (s.setRegion k x).fuseBad = s.fuseBad := rfl
@[simp] theorem State.setRegion_remapRec (s : State) (k : Nat) (x : Region) : (s.setRegion k x).remapRec = s.remapRec := rfl
@[simp] theorem State.setRegion_hostOut (s : State) (k : Nat) (x : Region) : (s.setRegion k x).hostOut = s.hostOut := rfl
@[simp] theorem State.setRegion_shown (s : State) (k : Nat) (x : Region) : (s.setRegion k x).shown = s.shown := rfl
@[simp] theorem State.setRegion_freeCtr (s : State) (k : Nat) (x : Region) : (s.setRegion k x).freeCtr = s.freeCtr := rfl

@[simp] theorem State.setScribe_pending (s : State) (k : Nat) (x : Scribe) : (s.setScribe k x).pending = s.pending := rfl
@[simp] theorem State.setScribe_arrays (s : State) (k : Nat) (x : Scribe) : (s.setScribe k x).arrays = s.arrays := rfl
@[simp] theorem State.setScribe_pcores (s : State) (k : Nat) (x : Scribe) : (s.setScribe k x).pcores = s.pcores := rfl
@[simp] theorem State.setScribe_remap (s : State) (k : Nat) (x : Scribe) : (s.setScribe k x).remap = s.remap := rfl
@[simp] theorem State.setScribe_mesh (s : State) (k : Nat) (x : Scribe) : (s.setScribe k x).mesh = s.mesh := rfl
@[simp] theorem State.setScribe_slotsLig (s : State) (k : Nat) (x : Scribe) : (s.setScribe k x).slotsLig = s.slotsLig := rfl
@[simp] theorem State.setScribe_vcBuf (s : State) (k : Nat) (x : Scribe) : (s.setScribe k x).vcBuf = s.vcBuf := rfl
@[simp] theorem State.setScribe_regions (s : State) (k : Nat) (x : Scribe) : (s.setScribe k x).regions = s.regions := rfl
@[simp] theorem State.setScribe_slots (s : State) (k : Nat) (x : Scribe) : (s.setScribe k x).slots = s.slots := rfl
@[simp] theorem State.setScribe_handles (s : State) (k : Nat) (x : Scribe) : (s.setScribe k x).handles = s.handles := rfl
@[simp] theorem State.setScribe_parts (s : State) (k : Nat) (x : Scribe) : (s.setScribe k x).parts = s.parts := rfl
@[simp] theorem State.setScribe_partOrders (s : State) (k : Nat) (x : Scribe) : (s.setScribe k x).partOrders = s.partOrders := rfl
@[simp] theorem State.setScribe_weight (s : State) (k : Nat) (x : Scribe) : (s.setScribe k x).weight = s.weight := rfl
@[simp] theorem State.setScribe_cal (s : State) (k : Nat) (x : Scribe) : (s.setScribe k x).cal = s.cal := rfl
@[simp] theorem State.setScribe_ports (s : State) (k : Nat) (x : Scribe) : (s.setScribe k x).ports = s.ports := rfl
@[simp] theorem State.setScribe_link (s : State) (k : Nat) (x : Scribe) : (s.setScribe k x).link = s.link := rfl
@[simp] theorem State.setScribe_integ (s : State) (k : Nat) (x : Scribe) : (s.setScribe k x).integ = s.integ := rfl
@[simp] theorem State.setScribe_bring (s : State) (k : Nat) (x : Scribe) : (s.setScribe k x).bring = s.bring := rfl
@[simp] theorem State.setScribe_clock (s : State) (k : Nat) (x : Scribe) : (s.setScribe k x).clock = s.clock := rfl
@[simp] theorem State.setScribe_sec (s : State) (k : Nat) (x : Scribe) : (s.setScribe k x).sec = s.sec := rfl
@[simp] theorem State.setScribe_therm (s : State) (k : Nat) (x : Scribe) : (s.setScribe k x).therm = s.therm := rfl
@[simp] theorem State.setScribe_conv (s : State) (k : Nat) (x : Scribe) : (s.setScribe k x).conv = s.conv := rfl
@[simp] theorem State.setScribe_hbm (s : State) (k : Nat) (x : Scribe) : (s.setScribe k x).hbm = s.hbm := rfl
@[simp] theorem State.setScribe_stroke (s : State) (k : Nat) (x : Scribe) : (s.setScribe k x).stroke = s.stroke := rfl
@[simp] theorem State.setScribe_serve (s : State) (k : Nat) (x : Scribe) : (s.setScribe k x).serve = s.serve := rfl
@[simp] theorem State.setScribe_pf (s : State) (k : Nat) (x : Scribe) : (s.setScribe k x).pf = s.pf := rfl
@[simp] theorem State.setScribe_pins (s : State) (k : Nat) (x : Scribe) : (s.setScribe k x).pins = s.pins := rfl
@[simp] theorem State.setScribe_shut (s : State) (k : Nat) (x : Scribe) : (s.setScribe k x).shut = s.shut := rfl
@[simp] theorem State.setScribe_pages (s : State) (k : Nat) (x : Scribe) : (s.setScribe k x).pages = s.pages := rfl
@[simp] theorem State.setScribe_regs (s : State) (k : Nat) (x : Scribe) : (s.setScribe k x).regs = s.regs := rfl
@[simp] theorem State.setScribe_arms (s : State) (k : Nat) (x : Scribe) : (s.setScribe k x).arms = s.arms := rfl
@[simp] theorem State.setScribe_latches (s : State) (k : Nat) (x : Scribe) : (s.setScribe k x).latches = s.latches := rfl
@[simp] theorem State.setScribe_msgs (s : State) (k : Nat) (x : Scribe) : (s.setScribe k x).msgs = s.msgs := rfl
@[simp] theorem State.setScribe_fuseBad (s : State) (k : Nat) (x : Scribe) : (s.setScribe k x).fuseBad = s.fuseBad := rfl
@[simp] theorem State.setScribe_remapRec (s : State) (k : Nat) (x : Scribe) : (s.setScribe k x).remapRec = s.remapRec := rfl
@[simp] theorem State.setScribe_hostOut (s : State) (k : Nat) (x : Scribe) : (s.setScribe k x).hostOut = s.hostOut := rfl
@[simp] theorem State.setScribe_shown (s : State) (k : Nat) (x : Scribe) : (s.setScribe k x).shown = s.shown := rfl
@[simp] theorem State.setScribe_freeCtr (s : State) (k : Nat) (x : Scribe) : (s.setScribe k x).freeCtr = s.freeCtr := rfl

@[simp] theorem State.setSlot_pending (s : State) (k : Nat) (x : Slot) : (s.setSlot k x).pending = s.pending := rfl
@[simp] theorem State.setSlot_arrays (s : State) (k : Nat) (x : Slot) : (s.setSlot k x).arrays = s.arrays := rfl
@[simp] theorem State.setSlot_pcores (s : State) (k : Nat) (x : Slot) : (s.setSlot k x).pcores = s.pcores := rfl
@[simp] theorem State.setSlot_remap (s : State) (k : Nat) (x : Slot) : (s.setSlot k x).remap = s.remap := rfl
@[simp] theorem State.setSlot_mesh (s : State) (k : Nat) (x : Slot) : (s.setSlot k x).mesh = s.mesh := rfl
@[simp] theorem State.setSlot_slotsLig (s : State) (k : Nat) (x : Slot) : (s.setSlot k x).slotsLig = s.slotsLig := rfl
@[simp] theorem State.setSlot_vcBuf (s : State) (k : Nat) (x : Slot) : (s.setSlot k x).vcBuf = s.vcBuf := rfl
@[simp] theorem State.setSlot_regions (s : State) (k : Nat) (x : Slot) : (s.setSlot k x).regions = s.regions := rfl
@[simp] theorem State.setSlot_scribes (s : State) (k : Nat) (x : Slot) : (s.setSlot k x).scribes = s.scribes := rfl
@[simp] theorem State.setSlot_handles (s : State) (k : Nat) (x : Slot) : (s.setSlot k x).handles = s.handles := rfl
@[simp] theorem State.setSlot_parts (s : State) (k : Nat) (x : Slot) : (s.setSlot k x).parts = s.parts := rfl
@[simp] theorem State.setSlot_partOrders (s : State) (k : Nat) (x : Slot) : (s.setSlot k x).partOrders = s.partOrders := rfl
@[simp] theorem State.setSlot_weight (s : State) (k : Nat) (x : Slot) : (s.setSlot k x).weight = s.weight := rfl
@[simp] theorem State.setSlot_cal (s : State) (k : Nat) (x : Slot) : (s.setSlot k x).cal = s.cal := rfl
@[simp] theorem State.setSlot_ports (s : State) (k : Nat) (x : Slot) : (s.setSlot k x).ports = s.ports := rfl
@[simp] theorem State.setSlot_link (s : State) (k : Nat) (x : Slot) : (s.setSlot k x).link = s.link := rfl
@[simp] theorem State.setSlot_integ (s : State) (k : Nat) (x : Slot) : (s.setSlot k x).integ = s.integ := rfl
@[simp] theorem State.setSlot_bring (s : State) (k : Nat) (x : Slot) : (s.setSlot k x).bring = s.bring := rfl
@[simp] theorem State.setSlot_clock (s : State) (k : Nat) (x : Slot) : (s.setSlot k x).clock = s.clock := rfl
@[simp] theorem State.setSlot_sec (s : State) (k : Nat) (x : Slot) : (s.setSlot k x).sec = s.sec := rfl
@[simp] theorem State.setSlot_therm (s : State) (k : Nat) (x : Slot) : (s.setSlot k x).therm = s.therm := rfl
@[simp] theorem State.setSlot_conv (s : State) (k : Nat) (x : Slot) : (s.setSlot k x).conv = s.conv := rfl
@[simp] theorem State.setSlot_hbm (s : State) (k : Nat) (x : Slot) : (s.setSlot k x).hbm = s.hbm := rfl
@[simp] theorem State.setSlot_stroke (s : State) (k : Nat) (x : Slot) : (s.setSlot k x).stroke = s.stroke := rfl
@[simp] theorem State.setSlot_serve (s : State) (k : Nat) (x : Slot) : (s.setSlot k x).serve = s.serve := rfl
@[simp] theorem State.setSlot_pf (s : State) (k : Nat) (x : Slot) : (s.setSlot k x).pf = s.pf := rfl
@[simp] theorem State.setSlot_pins (s : State) (k : Nat) (x : Slot) : (s.setSlot k x).pins = s.pins := rfl
@[simp] theorem State.setSlot_shut (s : State) (k : Nat) (x : Slot) : (s.setSlot k x).shut = s.shut := rfl
@[simp] theorem State.setSlot_pages (s : State) (k : Nat) (x : Slot) : (s.setSlot k x).pages = s.pages := rfl
@[simp] theorem State.setSlot_regs (s : State) (k : Nat) (x : Slot) : (s.setSlot k x).regs = s.regs := rfl
@[simp] theorem State.setSlot_arms (s : State) (k : Nat) (x : Slot) : (s.setSlot k x).arms = s.arms := rfl
@[simp] theorem State.setSlot_latches (s : State) (k : Nat) (x : Slot) : (s.setSlot k x).latches = s.latches := rfl
@[simp] theorem State.setSlot_msgs (s : State) (k : Nat) (x : Slot) : (s.setSlot k x).msgs = s.msgs := rfl
@[simp] theorem State.setSlot_fuseBad (s : State) (k : Nat) (x : Slot) : (s.setSlot k x).fuseBad = s.fuseBad := rfl
@[simp] theorem State.setSlot_remapRec (s : State) (k : Nat) (x : Slot) : (s.setSlot k x).remapRec = s.remapRec := rfl
@[simp] theorem State.setSlot_hostOut (s : State) (k : Nat) (x : Slot) : (s.setSlot k x).hostOut = s.hostOut := rfl
@[simp] theorem State.setSlot_shown (s : State) (k : Nat) (x : Slot) : (s.setSlot k x).shown = s.shown := rfl
@[simp] theorem State.setSlot_freeCtr (s : State) (k : Nat) (x : Slot) : (s.setSlot k x).freeCtr = s.freeCtr := rfl

@[simp] theorem State.setHandle_pending (s : State) (k : Nat) (x : Handle) : (s.setHandle k x).pending = s.pending := rfl
@[simp] theorem State.setHandle_arrays (s : State) (k : Nat) (x : Handle) : (s.setHandle k x).arrays = s.arrays := rfl
@[simp] theorem State.setHandle_pcores (s : State) (k : Nat) (x : Handle) : (s.setHandle k x).pcores = s.pcores := rfl
@[simp] theorem State.setHandle_remap (s : State) (k : Nat) (x : Handle) : (s.setHandle k x).remap = s.remap := rfl
@[simp] theorem State.setHandle_mesh (s : State) (k : Nat) (x : Handle) : (s.setHandle k x).mesh = s.mesh := rfl
@[simp] theorem State.setHandle_slotsLig (s : State) (k : Nat) (x : Handle) : (s.setHandle k x).slotsLig = s.slotsLig := rfl
@[simp] theorem State.setHandle_vcBuf (s : State) (k : Nat) (x : Handle) : (s.setHandle k x).vcBuf = s.vcBuf := rfl
@[simp] theorem State.setHandle_regions (s : State) (k : Nat) (x : Handle) : (s.setHandle k x).regions = s.regions := rfl
@[simp] theorem State.setHandle_scribes (s : State) (k : Nat) (x : Handle) : (s.setHandle k x).scribes = s.scribes := rfl
@[simp] theorem State.setHandle_slots (s : State) (k : Nat) (x : Handle) : (s.setHandle k x).slots = s.slots := rfl
@[simp] theorem State.setHandle_parts (s : State) (k : Nat) (x : Handle) : (s.setHandle k x).parts = s.parts := rfl
@[simp] theorem State.setHandle_partOrders (s : State) (k : Nat) (x : Handle) : (s.setHandle k x).partOrders = s.partOrders := rfl
@[simp] theorem State.setHandle_weight (s : State) (k : Nat) (x : Handle) : (s.setHandle k x).weight = s.weight := rfl
@[simp] theorem State.setHandle_cal (s : State) (k : Nat) (x : Handle) : (s.setHandle k x).cal = s.cal := rfl
@[simp] theorem State.setHandle_ports (s : State) (k : Nat) (x : Handle) : (s.setHandle k x).ports = s.ports := rfl
@[simp] theorem State.setHandle_link (s : State) (k : Nat) (x : Handle) : (s.setHandle k x).link = s.link := rfl
@[simp] theorem State.setHandle_integ (s : State) (k : Nat) (x : Handle) : (s.setHandle k x).integ = s.integ := rfl
@[simp] theorem State.setHandle_bring (s : State) (k : Nat) (x : Handle) : (s.setHandle k x).bring = s.bring := rfl
@[simp] theorem State.setHandle_clock (s : State) (k : Nat) (x : Handle) : (s.setHandle k x).clock = s.clock := rfl
@[simp] theorem State.setHandle_sec (s : State) (k : Nat) (x : Handle) : (s.setHandle k x).sec = s.sec := rfl
@[simp] theorem State.setHandle_therm (s : State) (k : Nat) (x : Handle) : (s.setHandle k x).therm = s.therm := rfl
@[simp] theorem State.setHandle_conv (s : State) (k : Nat) (x : Handle) : (s.setHandle k x).conv = s.conv := rfl
@[simp] theorem State.setHandle_hbm (s : State) (k : Nat) (x : Handle) : (s.setHandle k x).hbm = s.hbm := rfl
@[simp] theorem State.setHandle_stroke (s : State) (k : Nat) (x : Handle) : (s.setHandle k x).stroke = s.stroke := rfl
@[simp] theorem State.setHandle_serve (s : State) (k : Nat) (x : Handle) : (s.setHandle k x).serve = s.serve := rfl
@[simp] theorem State.setHandle_pf (s : State) (k : Nat) (x : Handle) : (s.setHandle k x).pf = s.pf := rfl
@[simp] theorem State.setHandle_pins (s : State) (k : Nat) (x : Handle) : (s.setHandle k x).pins = s.pins := rfl
@[simp] theorem State.setHandle_shut (s : State) (k : Nat) (x : Handle) : (s.setHandle k x).shut = s.shut := rfl
@[simp] theorem State.setHandle_pages (s : State) (k : Nat) (x : Handle) : (s.setHandle k x).pages = s.pages := rfl
@[simp] theorem State.setHandle_regs (s : State) (k : Nat) (x : Handle) : (s.setHandle k x).regs = s.regs := rfl
@[simp] theorem State.setHandle_arms (s : State) (k : Nat) (x : Handle) : (s.setHandle k x).arms = s.arms := rfl
@[simp] theorem State.setHandle_latches (s : State) (k : Nat) (x : Handle) : (s.setHandle k x).latches = s.latches := rfl
@[simp] theorem State.setHandle_msgs (s : State) (k : Nat) (x : Handle) : (s.setHandle k x).msgs = s.msgs := rfl
@[simp] theorem State.setHandle_fuseBad (s : State) (k : Nat) (x : Handle) : (s.setHandle k x).fuseBad = s.fuseBad := rfl
@[simp] theorem State.setHandle_remapRec (s : State) (k : Nat) (x : Handle) : (s.setHandle k x).remapRec = s.remapRec := rfl
@[simp] theorem State.setHandle_hostOut (s : State) (k : Nat) (x : Handle) : (s.setHandle k x).hostOut = s.hostOut := rfl
@[simp] theorem State.setHandle_shown (s : State) (k : Nat) (x : Handle) : (s.setHandle k x).shown = s.shown := rfl
@[simp] theorem State.setHandle_freeCtr (s : State) (k : Nat) (x : Handle) : (s.setHandle k x).freeCtr = s.freeCtr := rfl

@[simp] theorem State.setPart_pending (s : State) (k : Nat) (x : Part) : (s.setPart k x).pending = s.pending := rfl
@[simp] theorem State.setPart_arrays (s : State) (k : Nat) (x : Part) : (s.setPart k x).arrays = s.arrays := rfl
@[simp] theorem State.setPart_pcores (s : State) (k : Nat) (x : Part) : (s.setPart k x).pcores = s.pcores := rfl
@[simp] theorem State.setPart_remap (s : State) (k : Nat) (x : Part) : (s.setPart k x).remap = s.remap := rfl
@[simp] theorem State.setPart_mesh (s : State) (k : Nat) (x : Part) : (s.setPart k x).mesh = s.mesh := rfl
@[simp] theorem State.setPart_slotsLig (s : State) (k : Nat) (x : Part) : (s.setPart k x).slotsLig = s.slotsLig := rfl
@[simp] theorem State.setPart_vcBuf (s : State) (k : Nat) (x : Part) : (s.setPart k x).vcBuf = s.vcBuf := rfl
@[simp] theorem State.setPart_regions (s : State) (k : Nat) (x : Part) : (s.setPart k x).regions = s.regions := rfl
@[simp] theorem State.setPart_scribes (s : State) (k : Nat) (x : Part) : (s.setPart k x).scribes = s.scribes := rfl
@[simp] theorem State.setPart_slots (s : State) (k : Nat) (x : Part) : (s.setPart k x).slots = s.slots := rfl
@[simp] theorem State.setPart_handles (s : State) (k : Nat) (x : Part) : (s.setPart k x).handles = s.handles := rfl
@[simp] theorem State.setPart_partOrders (s : State) (k : Nat) (x : Part) : (s.setPart k x).partOrders = s.partOrders := rfl
@[simp] theorem State.setPart_weight (s : State) (k : Nat) (x : Part) : (s.setPart k x).weight = s.weight := rfl
@[simp] theorem State.setPart_cal (s : State) (k : Nat) (x : Part) : (s.setPart k x).cal = s.cal := rfl
@[simp] theorem State.setPart_ports (s : State) (k : Nat) (x : Part) : (s.setPart k x).ports = s.ports := rfl
@[simp] theorem State.setPart_link (s : State) (k : Nat) (x : Part) : (s.setPart k x).link = s.link := rfl
@[simp] theorem State.setPart_integ (s : State) (k : Nat) (x : Part) : (s.setPart k x).integ = s.integ := rfl
@[simp] theorem State.setPart_bring (s : State) (k : Nat) (x : Part) : (s.setPart k x).bring = s.bring := rfl
@[simp] theorem State.setPart_clock (s : State) (k : Nat) (x : Part) : (s.setPart k x).clock = s.clock := rfl
@[simp] theorem State.setPart_sec (s : State) (k : Nat) (x : Part) : (s.setPart k x).sec = s.sec := rfl
@[simp] theorem State.setPart_therm (s : State) (k : Nat) (x : Part) : (s.setPart k x).therm = s.therm := rfl
@[simp] theorem State.setPart_conv (s : State) (k : Nat) (x : Part) : (s.setPart k x).conv = s.conv := rfl
@[simp] theorem State.setPart_hbm (s : State) (k : Nat) (x : Part) : (s.setPart k x).hbm = s.hbm := rfl
@[simp] theorem State.setPart_stroke (s : State) (k : Nat) (x : Part) : (s.setPart k x).stroke = s.stroke := rfl
@[simp] theorem State.setPart_serve (s : State) (k : Nat) (x : Part) : (s.setPart k x).serve = s.serve := rfl
@[simp] theorem State.setPart_pf (s : State) (k : Nat) (x : Part) : (s.setPart k x).pf = s.pf := rfl
@[simp] theorem State.setPart_pins (s : State) (k : Nat) (x : Part) : (s.setPart k x).pins = s.pins := rfl
@[simp] theorem State.setPart_shut (s : State) (k : Nat) (x : Part) : (s.setPart k x).shut = s.shut := rfl
@[simp] theorem State.setPart_pages (s : State) (k : Nat) (x : Part) : (s.setPart k x).pages = s.pages := rfl
@[simp] theorem State.setPart_regs (s : State) (k : Nat) (x : Part) : (s.setPart k x).regs = s.regs := rfl
@[simp] theorem State.setPart_arms (s : State) (k : Nat) (x : Part) : (s.setPart k x).arms = s.arms := rfl
@[simp] theorem State.setPart_latches (s : State) (k : Nat) (x : Part) : (s.setPart k x).latches = s.latches := rfl
@[simp] theorem State.setPart_msgs (s : State) (k : Nat) (x : Part) : (s.setPart k x).msgs = s.msgs := rfl
@[simp] theorem State.setPart_fuseBad (s : State) (k : Nat) (x : Part) : (s.setPart k x).fuseBad = s.fuseBad := rfl
@[simp] theorem State.setPart_remapRec (s : State) (k : Nat) (x : Part) : (s.setPart k x).remapRec = s.remapRec := rfl
@[simp] theorem State.setPart_hostOut (s : State) (k : Nat) (x : Part) : (s.setPart k x).hostOut = s.hostOut := rfl
@[simp] theorem State.setPart_shown (s : State) (k : Nat) (x : Part) : (s.setPart k x).shown = s.shown := rfl
@[simp] theorem State.setPart_freeCtr (s : State) (k : Nat) (x : Part) : (s.setPart k x).freeCtr = s.freeCtr := rfl

@[simp] theorem State.updPart_pending (s : State) (k : Nat) (f : Part → Part) : (s.updPart k f).pending = s.pending := rfl
@[simp] theorem State.updPart_arrays (s : State) (k : Nat) (f : Part → Part) : (s.updPart k f).arrays = s.arrays := rfl
@[simp] theorem State.updPart_pcores (s : State) (k : Nat) (f : Part → Part) : (s.updPart k f).pcores = s.pcores := rfl
@[simp] theorem State.updPart_remap (s : State) (k : Nat) (f : Part → Part) : (s.updPart k f).remap = s.remap := rfl
@[simp] theorem State.updPart_mesh (s : State) (k : Nat) (f : Part → Part) : (s.updPart k f).mesh = s.mesh := rfl
@[simp] theorem State.updPart_slotsLig (s : State) (k : Nat) (f : Part → Part) : (s.updPart k f).slotsLig = s.slotsLig := rfl
@[simp] theorem State.updPart_vcBuf (s : State) (k : Nat) (f : Part → Part) : (s.updPart k f).vcBuf = s.vcBuf := rfl
@[simp] theorem State.updPart_regions (s : State) (k : Nat) (f : Part → Part) : (s.updPart k f).regions = s.regions := rfl
@[simp] theorem State.updPart_scribes (s : State) (k : Nat) (f : Part → Part) : (s.updPart k f).scribes = s.scribes := rfl
@[simp] theorem State.updPart_slots (s : State) (k : Nat) (f : Part → Part) : (s.updPart k f).slots = s.slots := rfl
@[simp] theorem State.updPart_handles (s : State) (k : Nat) (f : Part → Part) : (s.updPart k f).handles = s.handles := rfl
@[simp] theorem State.updPart_partOrders (s : State) (k : Nat) (f : Part → Part) : (s.updPart k f).partOrders = s.partOrders := rfl
@[simp] theorem State.updPart_weight (s : State) (k : Nat) (f : Part → Part) : (s.updPart k f).weight = s.weight := rfl
@[simp] theorem State.updPart_cal (s : State) (k : Nat) (f : Part → Part) : (s.updPart k f).cal = s.cal := rfl
@[simp] theorem State.updPart_ports (s : State) (k : Nat) (f : Part → Part) : (s.updPart k f).ports = s.ports := rfl
@[simp] theorem State.updPart_link (s : State) (k : Nat) (f : Part → Part) : (s.updPart k f).link = s.link := rfl
@[simp] theorem State.updPart_integ (s : State) (k : Nat) (f : Part → Part) : (s.updPart k f).integ = s.integ := rfl
@[simp] theorem State.updPart_bring (s : State) (k : Nat) (f : Part → Part) : (s.updPart k f).bring = s.bring := rfl
@[simp] theorem State.updPart_clock (s : State) (k : Nat) (f : Part → Part) : (s.updPart k f).clock = s.clock := rfl
@[simp] theorem State.updPart_sec (s : State) (k : Nat) (f : Part → Part) : (s.updPart k f).sec = s.sec := rfl
@[simp] theorem State.updPart_therm (s : State) (k : Nat) (f : Part → Part) : (s.updPart k f).therm = s.therm := rfl
@[simp] theorem State.updPart_conv (s : State) (k : Nat) (f : Part → Part) : (s.updPart k f).conv = s.conv := rfl
@[simp] theorem State.updPart_hbm (s : State) (k : Nat) (f : Part → Part) : (s.updPart k f).hbm = s.hbm := rfl
@[simp] theorem State.updPart_stroke (s : State) (k : Nat) (f : Part → Part) : (s.updPart k f).stroke = s.stroke := rfl
@[simp] theorem State.updPart_serve (s : State) (k : Nat) (f : Part → Part) : (s.updPart k f).serve = s.serve := rfl
@[simp] theorem State.updPart_pf (s : State) (k : Nat) (f : Part → Part) : (s.updPart k f).pf = s.pf := rfl
@[simp] theorem State.updPart_pins (s : State) (k : Nat) (f : Part → Part) : (s.updPart k f).pins = s.pins := rfl
@[simp] theorem State.updPart_shut (s : State) (k : Nat) (f : Part → Part) : (s.updPart k f).shut = s.shut := rfl
@[simp] theorem State.updPart_pages (s : State) (k : Nat) (f : Part → Part) : (s.updPart k f).pages = s.pages := rfl
@[simp] theorem State.updPart_regs (s : State) (k : Nat) (f : Part → Part) : (s.updPart k f).regs = s.regs := rfl
@[simp] theorem State.updPart_arms (s : State) (k : Nat) (f : Part → Part) : (s.updPart k f).arms = s.arms := rfl
@[simp] theorem State.updPart_latches (s : State) (k : Nat) (f : Part → Part) : (s.updPart k f).latches = s.latches := rfl
@[simp] theorem State.updPart_msgs (s : State) (k : Nat) (f : Part → Part) : (s.updPart k f).msgs = s.msgs := rfl
@[simp] theorem State.updPart_fuseBad (s : State) (k : Nat) (f : Part → Part) : (s.updPart k f).fuseBad = s.fuseBad := rfl
@[simp] theorem State.updPart_remapRec (s : State) (k : Nat) (f : Part → Part) : (s.updPart k f).remapRec = s.remapRec := rfl
@[simp] theorem State.updPart_hostOut (s : State) (k : Nat) (f : Part → Part) : (s.updPart k f).hostOut = s.hostOut := rfl
@[simp] theorem State.updPart_shown (s : State) (k : Nat) (f : Part → Part) : (s.updPart k f).shown = s.shown := rfl
@[simp] theorem State.updPart_freeCtr (s : State) (k : Nat) (f : Part → Part) : (s.updPart k f).freeCtr = s.freeCtr := rfl

@[simp] theorem State.setPort_pending (s : State) (k : Nat) (x : Port) : (s.setPort k x).pending = s.pending := rfl
@[simp] theorem State.setPort_arrays (s : State) (k : Nat) (x : Port) : (s.setPort k x).arrays = s.arrays := rfl
@[simp] theorem State.setPort_pcores (s : State) (k : Nat) (x : Port) : (s.setPort k x).pcores = s.pcores := rfl
@[simp] theorem State.setPort_remap (s : State) (k : Nat) (x : Port) : (s.setPort k x).remap = s.remap := rfl
@[simp] theorem State.setPort_mesh (s : State) (k : Nat) (x : Port) : (s.setPort k x).mesh = s.mesh := rfl
@[simp] theorem State.setPort_slotsLig (s : State) (k : Nat) (x : Port) : (s.setPort k x).slotsLig = s.slotsLig := rfl
@[simp] theorem State.setPort_vcBuf (s : State) (k : Nat) (x : Port) : (s.setPort k x).vcBuf = s.vcBuf := rfl
@[simp] theorem State.setPort_regions (s : State) (k : Nat) (x : Port) : (s.setPort k x).regions = s.regions := rfl
@[simp] theorem State.setPort_scribes (s : State) (k : Nat) (x : Port) : (s.setPort k x).scribes = s.scribes := rfl
@[simp] theorem State.setPort_slots (s : State) (k : Nat) (x : Port) : (s.setPort k x).slots = s.slots := rfl
@[simp] theorem State.setPort_handles (s : State) (k : Nat) (x : Port) : (s.setPort k x).handles = s.handles := rfl
@[simp] theorem State.setPort_parts (s : State) (k : Nat) (x : Port) : (s.setPort k x).parts = s.parts := rfl
@[simp] theorem State.setPort_partOrders (s : State) (k : Nat) (x : Port) : (s.setPort k x).partOrders = s.partOrders := rfl
@[simp] theorem State.setPort_weight (s : State) (k : Nat) (x : Port) : (s.setPort k x).weight = s.weight := rfl
@[simp] theorem State.setPort_cal (s : State) (k : Nat) (x : Port) : (s.setPort k x).cal = s.cal := rfl
@[simp] theorem State.setPort_link (s : State) (k : Nat) (x : Port) : (s.setPort k x).link = s.link := rfl
@[simp] theorem State.setPort_integ (s : State) (k : Nat) (x : Port) : (s.setPort k x).integ = s.integ := rfl
@[simp] theorem State.setPort_bring (s : State) (k : Nat) (x : Port) : (s.setPort k x).bring = s.bring := rfl
@[simp] theorem State.setPort_clock (s : State) (k : Nat) (x : Port) : (s.setPort k x).clock = s.clock := rfl
@[simp] theorem State.setPort_sec (s : State) (k : Nat) (x : Port) : (s.setPort k x).sec = s.sec := rfl
@[simp] theorem State.setPort_therm (s : State) (k : Nat) (x : Port) : (s.setPort k x).therm = s.therm := rfl
@[simp] theorem State.setPort_conv (s : State) (k : Nat) (x : Port) : (s.setPort k x).conv = s.conv := rfl
@[simp] theorem State.setPort_hbm (s : State) (k : Nat) (x : Port) : (s.setPort k x).hbm = s.hbm := rfl
@[simp] theorem State.setPort_stroke (s : State) (k : Nat) (x : Port) : (s.setPort k x).stroke = s.stroke := rfl
@[simp] theorem State.setPort_serve (s : State) (k : Nat) (x : Port) : (s.setPort k x).serve = s.serve := rfl
@[simp] theorem State.setPort_pf (s : State) (k : Nat) (x : Port) : (s.setPort k x).pf = s.pf := rfl
@[simp] theorem State.setPort_pins (s : State) (k : Nat) (x : Port) : (s.setPort k x).pins = s.pins := rfl
@[simp] theorem State.setPort_shut (s : State) (k : Nat) (x : Port) : (s.setPort k x).shut = s.shut := rfl
@[simp] theorem State.setPort_pages (s : State) (k : Nat) (x : Port) : (s.setPort k x).pages = s.pages := rfl
@[simp] theorem State.setPort_regs (s : State) (k : Nat) (x : Port) : (s.setPort k x).regs = s.regs := rfl
@[simp] theorem State.setPort_arms (s : State) (k : Nat) (x : Port) : (s.setPort k x).arms = s.arms := rfl
@[simp] theorem State.setPort_latches (s : State) (k : Nat) (x : Port) : (s.setPort k x).latches = s.latches := rfl
@[simp] theorem State.setPort_msgs (s : State) (k : Nat) (x : Port) : (s.setPort k x).msgs = s.msgs := rfl
@[simp] theorem State.setPort_fuseBad (s : State) (k : Nat) (x : Port) : (s.setPort k x).fuseBad = s.fuseBad := rfl
@[simp] theorem State.setPort_remapRec (s : State) (k : Nat) (x : Port) : (s.setPort k x).remapRec = s.remapRec := rfl
@[simp] theorem State.setPort_hostOut (s : State) (k : Nat) (x : Port) : (s.setPort k x).hostOut = s.hostOut := rfl
@[simp] theorem State.setPort_shown (s : State) (k : Nat) (x : Port) : (s.setPort k x).shown = s.shown := rfl
@[simp] theorem State.setPort_freeCtr (s : State) (k : Nat) (x : Port) : (s.setPort k x).freeCtr = s.freeCtr := rfl

@[simp] theorem State.setStack_pending (s : State) (k : Nat) (x : Stack) : (s.setStack k x).pending = s.pending := rfl
@[simp] theorem State.setStack_arrays (s : State) (k : Nat) (x : Stack) : (s.setStack k x).arrays = s.arrays := rfl
@[simp] theorem State.setStack_pcores (s : State) (k : Nat) (x : Stack) : (s.setStack k x).pcores = s.pcores := rfl
@[simp] theorem State.setStack_remap (s : State) (k : Nat) (x : Stack) : (s.setStack k x).remap = s.remap := rfl
@[simp] theorem State.setStack_mesh (s : State) (k : Nat) (x : Stack) : (s.setStack k x).mesh = s.mesh := rfl
@[simp] theorem State.setStack_slotsLig (s : State) (k : Nat) (x : Stack) : (s.setStack k x).slotsLig = s.slotsLig := rfl
@[simp] theorem State.setStack_vcBuf (s : State) (k : Nat) (x : Stack) : (s.setStack k x).vcBuf = s.vcBuf := rfl
@[simp] theorem State.setStack_regions (s : State) (k : Nat) (x : Stack) : (s.setStack k x).regions = s.regions := rfl
@[simp] theorem State.setStack_scribes (s : State) (k : Nat) (x : Stack) : (s.setStack k x).scribes = s.scribes := rfl
@[simp] theorem State.setStack_slots (s : State) (k : Nat) (x : Stack) : (s.setStack k x).slots = s.slots := rfl
@[simp] theorem State.setStack_handles (s : State) (k : Nat) (x : Stack) : (s.setStack k x).handles = s.handles := rfl
@[simp] theorem State.setStack_parts (s : State) (k : Nat) (x : Stack) : (s.setStack k x).parts = s.parts := rfl
@[simp] theorem State.setStack_partOrders (s : State) (k : Nat) (x : Stack) : (s.setStack k x).partOrders = s.partOrders := rfl
@[simp] theorem State.setStack_weight (s : State) (k : Nat) (x : Stack) : (s.setStack k x).weight = s.weight := rfl
@[simp] theorem State.setStack_cal (s : State) (k : Nat) (x : Stack) : (s.setStack k x).cal = s.cal := rfl
@[simp] theorem State.setStack_ports (s : State) (k : Nat) (x : Stack) : (s.setStack k x).ports = s.ports := rfl
@[simp] theorem State.setStack_link (s : State) (k : Nat) (x : Stack) : (s.setStack k x).link = s.link := rfl
@[simp] theorem State.setStack_integ (s : State) (k : Nat) (x : Stack) : (s.setStack k x).integ = s.integ := rfl
@[simp] theorem State.setStack_bring (s : State) (k : Nat) (x : Stack) : (s.setStack k x).bring = s.bring := rfl
@[simp] theorem State.setStack_clock (s : State) (k : Nat) (x : Stack) : (s.setStack k x).clock = s.clock := rfl
@[simp] theorem State.setStack_sec (s : State) (k : Nat) (x : Stack) : (s.setStack k x).sec = s.sec := rfl
@[simp] theorem State.setStack_therm (s : State) (k : Nat) (x : Stack) : (s.setStack k x).therm = s.therm := rfl
@[simp] theorem State.setStack_conv (s : State) (k : Nat) (x : Stack) : (s.setStack k x).conv = s.conv := rfl
@[simp] theorem State.setStack_stroke (s : State) (k : Nat) (x : Stack) : (s.setStack k x).stroke = s.stroke := rfl
@[simp] theorem State.setStack_serve (s : State) (k : Nat) (x : Stack) : (s.setStack k x).serve = s.serve := rfl
@[simp] theorem State.setStack_pf (s : State) (k : Nat) (x : Stack) : (s.setStack k x).pf = s.pf := rfl
@[simp] theorem State.setStack_pins (s : State) (k : Nat) (x : Stack) : (s.setStack k x).pins = s.pins := rfl
@[simp] theorem State.setStack_shut (s : State) (k : Nat) (x : Stack) : (s.setStack k x).shut = s.shut := rfl
@[simp] theorem State.setStack_pages (s : State) (k : Nat) (x : Stack) : (s.setStack k x).pages = s.pages := rfl
@[simp] theorem State.setStack_regs (s : State) (k : Nat) (x : Stack) : (s.setStack k x).regs = s.regs := rfl
@[simp] theorem State.setStack_arms (s : State) (k : Nat) (x : Stack) : (s.setStack k x).arms = s.arms := rfl
@[simp] theorem State.setStack_latches (s : State) (k : Nat) (x : Stack) : (s.setStack k x).latches = s.latches := rfl
@[simp] theorem State.setStack_msgs (s : State) (k : Nat) (x : Stack) : (s.setStack k x).msgs = s.msgs := rfl
@[simp] theorem State.setStack_fuseBad (s : State) (k : Nat) (x : Stack) : (s.setStack k x).fuseBad = s.fuseBad := rfl
@[simp] theorem State.setStack_remapRec (s : State) (k : Nat) (x : Stack) : (s.setStack k x).remapRec = s.remapRec := rfl
@[simp] theorem State.setStack_hostOut (s : State) (k : Nat) (x : Stack) : (s.setStack k x).hostOut = s.hostOut := rfl
@[simp] theorem State.setStack_shown (s : State) (k : Nat) (x : Stack) : (s.setStack k x).shown = s.shown := rfl
@[simp] theorem State.setStack_freeCtr (s : State) (k : Nat) (x : Stack) : (s.setStack k x).freeCtr = s.freeCtr := rfl

@[simp] theorem State.setPage_pending (s : State) (k : Nat) (x : Page) : (s.setPage k x).pending = s.pending := rfl
@[simp] theorem State.setPage_arrays (s : State) (k : Nat) (x : Page) : (s.setPage k x).arrays = s.arrays := rfl
@[simp] theorem State.setPage_pcores (s : State) (k : Nat) (x : Page) : (s.setPage k x).pcores = s.pcores := rfl
@[simp] theorem State.setPage_remap (s : State) (k : Nat) (x : Page) : (s.setPage k x).remap = s.remap := rfl
@[simp] theorem State.setPage_mesh (s : State) (k : Nat) (x : Page) : (s.setPage k x).mesh = s.mesh := rfl
@[simp] theorem State.setPage_slotsLig (s : State) (k : Nat) (x : Page) : (s.setPage k x).slotsLig = s.slotsLig := rfl
@[simp] theorem State.setPage_vcBuf (s : State) (k : Nat) (x : Page) : (s.setPage k x).vcBuf = s.vcBuf := rfl
@[simp] theorem State.setPage_regions (s : State) (k : Nat) (x : Page) : (s.setPage k x).regions = s.regions := rfl
@[simp] theorem State.setPage_scribes (s : State) (k : Nat) (x : Page) : (s.setPage k x).scribes = s.scribes := rfl
@[simp] theorem State.setPage_slots (s : State) (k : Nat) (x : Page) : (s.setPage k x).slots = s.slots := rfl
@[simp] theorem State.setPage_handles (s : State) (k : Nat) (x : Page) : (s.setPage k x).handles = s.handles := rfl
@[simp] theorem State.setPage_parts (s : State) (k : Nat) (x : Page) : (s.setPage k x).parts = s.parts := rfl
@[simp] theorem State.setPage_partOrders (s : State) (k : Nat) (x : Page) : (s.setPage k x).partOrders = s.partOrders := rfl
@[simp] theorem State.setPage_weight (s : State) (k : Nat) (x : Page) : (s.setPage k x).weight = s.weight := rfl
@[simp] theorem State.setPage_cal (s : State) (k : Nat) (x : Page) : (s.setPage k x).cal = s.cal := rfl
@[simp] theorem State.setPage_ports (s : State) (k : Nat) (x : Page) : (s.setPage k x).ports = s.ports := rfl
@[simp] theorem State.setPage_link (s : State) (k : Nat) (x : Page) : (s.setPage k x).link = s.link := rfl
@[simp] theorem State.setPage_integ (s : State) (k : Nat) (x : Page) : (s.setPage k x).integ = s.integ := rfl
@[simp] theorem State.setPage_bring (s : State) (k : Nat) (x : Page) : (s.setPage k x).bring = s.bring := rfl
@[simp] theorem State.setPage_clock (s : State) (k : Nat) (x : Page) : (s.setPage k x).clock = s.clock := rfl
@[simp] theorem State.setPage_sec (s : State) (k : Nat) (x : Page) : (s.setPage k x).sec = s.sec := rfl
@[simp] theorem State.setPage_therm (s : State) (k : Nat) (x : Page) : (s.setPage k x).therm = s.therm := rfl
@[simp] theorem State.setPage_conv (s : State) (k : Nat) (x : Page) : (s.setPage k x).conv = s.conv := rfl
@[simp] theorem State.setPage_hbm (s : State) (k : Nat) (x : Page) : (s.setPage k x).hbm = s.hbm := rfl
@[simp] theorem State.setPage_stroke (s : State) (k : Nat) (x : Page) : (s.setPage k x).stroke = s.stroke := rfl
@[simp] theorem State.setPage_serve (s : State) (k : Nat) (x : Page) : (s.setPage k x).serve = s.serve := rfl
@[simp] theorem State.setPage_pf (s : State) (k : Nat) (x : Page) : (s.setPage k x).pf = s.pf := rfl
@[simp] theorem State.setPage_pins (s : State) (k : Nat) (x : Page) : (s.setPage k x).pins = s.pins := rfl
@[simp] theorem State.setPage_shut (s : State) (k : Nat) (x : Page) : (s.setPage k x).shut = s.shut := rfl
@[simp] theorem State.setPage_regs (s : State) (k : Nat) (x : Page) : (s.setPage k x).regs = s.regs := rfl
@[simp] theorem State.setPage_arms (s : State) (k : Nat) (x : Page) : (s.setPage k x).arms = s.arms := rfl
@[simp] theorem State.setPage_latches (s : State) (k : Nat) (x : Page) : (s.setPage k x).latches = s.latches := rfl
@[simp] theorem State.setPage_msgs (s : State) (k : Nat) (x : Page) : (s.setPage k x).msgs = s.msgs := rfl
@[simp] theorem State.setPage_fuseBad (s : State) (k : Nat) (x : Page) : (s.setPage k x).fuseBad = s.fuseBad := rfl
@[simp] theorem State.setPage_remapRec (s : State) (k : Nat) (x : Page) : (s.setPage k x).remapRec = s.remapRec := rfl
@[simp] theorem State.setPage_hostOut (s : State) (k : Nat) (x : Page) : (s.setPage k x).hostOut = s.hostOut := rfl
@[simp] theorem State.setPage_shown (s : State) (k : Nat) (x : Page) : (s.setPage k x).shown = s.shown := rfl
@[simp] theorem State.setPage_freeCtr (s : State) (k : Nat) (x : Page) : (s.setPage k x).freeCtr = s.freeCtr := rfl

@[simp] theorem State.setJob_pending (s : State) (k : Nat) (x : Job) : (s.setJob k x).pending = s.pending := rfl
@[simp] theorem State.setJob_arrays (s : State) (k : Nat) (x : Job) : (s.setJob k x).arrays = s.arrays := rfl
@[simp] theorem State.setJob_pcores (s : State) (k : Nat) (x : Job) : (s.setJob k x).pcores = s.pcores := rfl
@[simp] theorem State.setJob_remap (s : State) (k : Nat) (x : Job) : (s.setJob k x).remap = s.remap := rfl
@[simp] theorem State.setJob_mesh (s : State) (k : Nat) (x : Job) : (s.setJob k x).mesh = s.mesh := rfl
@[simp] theorem State.setJob_slotsLig (s : State) (k : Nat) (x : Job) : (s.setJob k x).slotsLig = s.slotsLig := rfl
@[simp] theorem State.setJob_vcBuf (s : State) (k : Nat) (x : Job) : (s.setJob k x).vcBuf = s.vcBuf := rfl
@[simp] theorem State.setJob_regions (s : State) (k : Nat) (x : Job) : (s.setJob k x).regions = s.regions := rfl
@[simp] theorem State.setJob_scribes (s : State) (k : Nat) (x : Job) : (s.setJob k x).scribes = s.scribes := rfl
@[simp] theorem State.setJob_slots (s : State) (k : Nat) (x : Job) : (s.setJob k x).slots = s.slots := rfl
@[simp] theorem State.setJob_handles (s : State) (k : Nat) (x : Job) : (s.setJob k x).handles = s.handles := rfl
@[simp] theorem State.setJob_partOrders (s : State) (k : Nat) (x : Job) : (s.setJob k x).partOrders = s.partOrders := rfl
@[simp] theorem State.setJob_weight (s : State) (k : Nat) (x : Job) : (s.setJob k x).weight = s.weight := rfl
@[simp] theorem State.setJob_cal (s : State) (k : Nat) (x : Job) : (s.setJob k x).cal = s.cal := rfl
@[simp] theorem State.setJob_ports (s : State) (k : Nat) (x : Job) : (s.setJob k x).ports = s.ports := rfl
@[simp] theorem State.setJob_link (s : State) (k : Nat) (x : Job) : (s.setJob k x).link = s.link := rfl
@[simp] theorem State.setJob_integ (s : State) (k : Nat) (x : Job) : (s.setJob k x).integ = s.integ := rfl
@[simp] theorem State.setJob_bring (s : State) (k : Nat) (x : Job) : (s.setJob k x).bring = s.bring := rfl
@[simp] theorem State.setJob_clock (s : State) (k : Nat) (x : Job) : (s.setJob k x).clock = s.clock := rfl
@[simp] theorem State.setJob_sec (s : State) (k : Nat) (x : Job) : (s.setJob k x).sec = s.sec := rfl
@[simp] theorem State.setJob_therm (s : State) (k : Nat) (x : Job) : (s.setJob k x).therm = s.therm := rfl
@[simp] theorem State.setJob_conv (s : State) (k : Nat) (x : Job) : (s.setJob k x).conv = s.conv := rfl
@[simp] theorem State.setJob_hbm (s : State) (k : Nat) (x : Job) : (s.setJob k x).hbm = s.hbm := rfl
@[simp] theorem State.setJob_stroke (s : State) (k : Nat) (x : Job) : (s.setJob k x).stroke = s.stroke := rfl
@[simp] theorem State.setJob_serve (s : State) (k : Nat) (x : Job) : (s.setJob k x).serve = s.serve := rfl
@[simp] theorem State.setJob_pf (s : State) (k : Nat) (x : Job) : (s.setJob k x).pf = s.pf := rfl
@[simp] theorem State.setJob_pins (s : State) (k : Nat) (x : Job) : (s.setJob k x).pins = s.pins := rfl
@[simp] theorem State.setJob_shut (s : State) (k : Nat) (x : Job) : (s.setJob k x).shut = s.shut := rfl
@[simp] theorem State.setJob_pages (s : State) (k : Nat) (x : Job) : (s.setJob k x).pages = s.pages := rfl
@[simp] theorem State.setJob_regs (s : State) (k : Nat) (x : Job) : (s.setJob k x).regs = s.regs := rfl
@[simp] theorem State.setJob_arms (s : State) (k : Nat) (x : Job) : (s.setJob k x).arms = s.arms := rfl
@[simp] theorem State.setJob_latches (s : State) (k : Nat) (x : Job) : (s.setJob k x).latches = s.latches := rfl
@[simp] theorem State.setJob_msgs (s : State) (k : Nat) (x : Job) : (s.setJob k x).msgs = s.msgs := rfl
@[simp] theorem State.setJob_fuseBad (s : State) (k : Nat) (x : Job) : (s.setJob k x).fuseBad = s.fuseBad := rfl
@[simp] theorem State.setJob_remapRec (s : State) (k : Nat) (x : Job) : (s.setJob k x).remapRec = s.remapRec := rfl
@[simp] theorem State.setJob_hostOut (s : State) (k : Nat) (x : Job) : (s.setJob k x).hostOut = s.hostOut := rfl
@[simp] theorem State.setJob_shown (s : State) (k : Nat) (x : Job) : (s.setJob k x).shown = s.shown := rfl
@[simp] theorem State.setJob_freeCtr (s : State) (k : Nat) (x : Job) : (s.setJob k x).freeCtr = s.freeCtr := rfl

@[simp] theorem State.setReg_pending (s : State) (k o : Nat) (x : W32) : (s.setReg k o x).pending = s.pending := rfl
@[simp] theorem State.setReg_arrays (s : State) (k o : Nat) (x : W32) : (s.setReg k o x).arrays = s.arrays := rfl
@[simp] theorem State.setReg_pcores (s : State) (k o : Nat) (x : W32) : (s.setReg k o x).pcores = s.pcores := rfl
@[simp] theorem State.setReg_remap (s : State) (k o : Nat) (x : W32) : (s.setReg k o x).remap = s.remap := rfl
@[simp] theorem State.setReg_mesh (s : State) (k o : Nat) (x : W32) : (s.setReg k o x).mesh = s.mesh := rfl
@[simp] theorem State.setReg_slotsLig (s : State) (k o : Nat) (x : W32) : (s.setReg k o x).slotsLig = s.slotsLig := rfl
@[simp] theorem State.setReg_vcBuf (s : State) (k o : Nat) (x : W32) : (s.setReg k o x).vcBuf = s.vcBuf := rfl
@[simp] theorem State.setReg_regions (s : State) (k o : Nat) (x : W32) : (s.setReg k o x).regions = s.regions := rfl
@[simp] theorem State.setReg_scribes (s : State) (k o : Nat) (x : W32) : (s.setReg k o x).scribes = s.scribes := rfl
@[simp] theorem State.setReg_slots (s : State) (k o : Nat) (x : W32) : (s.setReg k o x).slots = s.slots := rfl
@[simp] theorem State.setReg_handles (s : State) (k o : Nat) (x : W32) : (s.setReg k o x).handles = s.handles := rfl
@[simp] theorem State.setReg_parts (s : State) (k o : Nat) (x : W32) : (s.setReg k o x).parts = s.parts := rfl
@[simp] theorem State.setReg_partOrders (s : State) (k o : Nat) (x : W32) : (s.setReg k o x).partOrders = s.partOrders := rfl
@[simp] theorem State.setReg_weight (s : State) (k o : Nat) (x : W32) : (s.setReg k o x).weight = s.weight := rfl
@[simp] theorem State.setReg_cal (s : State) (k o : Nat) (x : W32) : (s.setReg k o x).cal = s.cal := rfl
@[simp] theorem State.setReg_ports (s : State) (k o : Nat) (x : W32) : (s.setReg k o x).ports = s.ports := rfl
@[simp] theorem State.setReg_link (s : State) (k o : Nat) (x : W32) : (s.setReg k o x).link = s.link := rfl
@[simp] theorem State.setReg_integ (s : State) (k o : Nat) (x : W32) : (s.setReg k o x).integ = s.integ := rfl
@[simp] theorem State.setReg_bring (s : State) (k o : Nat) (x : W32) : (s.setReg k o x).bring = s.bring := rfl
@[simp] theorem State.setReg_clock (s : State) (k o : Nat) (x : W32) : (s.setReg k o x).clock = s.clock := rfl
@[simp] theorem State.setReg_sec (s : State) (k o : Nat) (x : W32) : (s.setReg k o x).sec = s.sec := rfl
@[simp] theorem State.setReg_therm (s : State) (k o : Nat) (x : W32) : (s.setReg k o x).therm = s.therm := rfl
@[simp] theorem State.setReg_conv (s : State) (k o : Nat) (x : W32) : (s.setReg k o x).conv = s.conv := rfl
@[simp] theorem State.setReg_hbm (s : State) (k o : Nat) (x : W32) : (s.setReg k o x).hbm = s.hbm := rfl
@[simp] theorem State.setReg_stroke (s : State) (k o : Nat) (x : W32) : (s.setReg k o x).stroke = s.stroke := rfl
@[simp] theorem State.setReg_serve (s : State) (k o : Nat) (x : W32) : (s.setReg k o x).serve = s.serve := rfl
@[simp] theorem State.setReg_pf (s : State) (k o : Nat) (x : W32) : (s.setReg k o x).pf = s.pf := rfl
@[simp] theorem State.setReg_pins (s : State) (k o : Nat) (x : W32) : (s.setReg k o x).pins = s.pins := rfl
@[simp] theorem State.setReg_shut (s : State) (k o : Nat) (x : W32) : (s.setReg k o x).shut = s.shut := rfl
@[simp] theorem State.setReg_pages (s : State) (k o : Nat) (x : W32) : (s.setReg k o x).pages = s.pages := rfl
@[simp] theorem State.setReg_arms (s : State) (k o : Nat) (x : W32) : (s.setReg k o x).arms = s.arms := rfl
@[simp] theorem State.setReg_latches (s : State) (k o : Nat) (x : W32) : (s.setReg k o x).latches = s.latches := rfl
@[simp] theorem State.setReg_msgs (s : State) (k o : Nat) (x : W32) : (s.setReg k o x).msgs = s.msgs := rfl
@[simp] theorem State.setReg_fuseBad (s : State) (k o : Nat) (x : W32) : (s.setReg k o x).fuseBad = s.fuseBad := rfl
@[simp] theorem State.setReg_remapRec (s : State) (k o : Nat) (x : W32) : (s.setReg k o x).remapRec = s.remapRec := rfl
@[simp] theorem State.setReg_hostOut (s : State) (k o : Nat) (x : W32) : (s.setReg k o x).hostOut = s.hostOut := rfl
@[simp] theorem State.setReg_shown (s : State) (k o : Nat) (x : W32) : (s.setReg k o x).shown = s.shown := rfl
@[simp] theorem State.setReg_freeCtr (s : State) (k o : Nat) (x : W32) : (s.setReg k o x).freeCtr = s.freeCtr := rfl

@[simp] theorem State.nextFree_pending (s : State)  : (s.nextFree).pending = s.pending := rfl
@[simp] theorem State.nextFree_arrays (s : State)  : (s.nextFree).arrays = s.arrays := rfl
@[simp] theorem State.nextFree_pcores (s : State)  : (s.nextFree).pcores = s.pcores := rfl
@[simp] theorem State.nextFree_remap (s : State)  : (s.nextFree).remap = s.remap := rfl
@[simp] theorem State.nextFree_mesh (s : State)  : (s.nextFree).mesh = s.mesh := rfl
@[simp] theorem State.nextFree_slotsLig (s : State)  : (s.nextFree).slotsLig = s.slotsLig := rfl
@[simp] theorem State.nextFree_vcBuf (s : State)  : (s.nextFree).vcBuf = s.vcBuf := rfl
@[simp] theorem State.nextFree_regions (s : State)  : (s.nextFree).regions = s.regions := rfl
@[simp] theorem State.nextFree_scribes (s : State)  : (s.nextFree).scribes = s.scribes := rfl
@[simp] theorem State.nextFree_slots (s : State)  : (s.nextFree).slots = s.slots := rfl
@[simp] theorem State.nextFree_handles (s : State)  : (s.nextFree).handles = s.handles := rfl
@[simp] theorem State.nextFree_parts (s : State)  : (s.nextFree).parts = s.parts := rfl
@[simp] theorem State.nextFree_partOrders (s : State)  : (s.nextFree).partOrders = s.partOrders := rfl
@[simp] theorem State.nextFree_weight (s : State)  : (s.nextFree).weight = s.weight := rfl
@[simp] theorem State.nextFree_cal (s : State)  : (s.nextFree).cal = s.cal := rfl
@[simp] theorem State.nextFree_ports (s : State)  : (s.nextFree).ports = s.ports := rfl
@[simp] theorem State.nextFree_link (s : State)  : (s.nextFree).link = s.link := rfl
@[simp] theorem State.nextFree_integ (s : State)  : (s.nextFree).integ = s.integ := rfl
@[simp] theorem State.nextFree_bring (s : State)  : (s.nextFree).bring = s.bring := rfl
@[simp] theorem State.nextFree_clock (s : State)  : (s.nextFree).clock = s.clock := rfl
@[simp] theorem State.nextFree_sec (s : State)  : (s.nextFree).sec = s.sec := rfl
@[simp] theorem State.nextFree_therm (s : State)  : (s.nextFree).therm = s.therm := rfl
@[simp] theorem State.nextFree_conv (s : State)  : (s.nextFree).conv = s.conv := rfl
@[simp] theorem State.nextFree_hbm (s : State)  : (s.nextFree).hbm = s.hbm := rfl
@[simp] theorem State.nextFree_stroke (s : State)  : (s.nextFree).stroke = s.stroke := rfl
@[simp] theorem State.nextFree_serve (s : State)  : (s.nextFree).serve = s.serve := rfl
@[simp] theorem State.nextFree_pf (s : State)  : (s.nextFree).pf = s.pf := rfl
@[simp] theorem State.nextFree_pins (s : State)  : (s.nextFree).pins = s.pins := rfl
@[simp] theorem State.nextFree_shut (s : State)  : (s.nextFree).shut = s.shut := rfl
@[simp] theorem State.nextFree_pages (s : State)  : (s.nextFree).pages = s.pages := rfl
@[simp] theorem State.nextFree_regs (s : State)  : (s.nextFree).regs = s.regs := rfl
@[simp] theorem State.nextFree_arms (s : State)  : (s.nextFree).arms = s.arms := rfl
@[simp] theorem State.nextFree_latches (s : State)  : (s.nextFree).latches = s.latches := rfl
@[simp] theorem State.nextFree_msgs (s : State)  : (s.nextFree).msgs = s.msgs := rfl
@[simp] theorem State.nextFree_fuseBad (s : State)  : (s.nextFree).fuseBad = s.fuseBad := rfl
@[simp] theorem State.nextFree_remapRec (s : State)  : (s.nextFree).remapRec = s.remapRec := rfl
@[simp] theorem State.nextFree_hostOut (s : State)  : (s.nextFree).hostOut = s.hostOut := rfl

/-! ### Accessors after an update -/

@[simp] theorem State.array_setArray_self (s : State) (k : Nat) (x : ArrayUnit) : (s.setArray k x).array k = x := by
  simp [State.array, State.setArray]
theorem State.array_setArray_ne (s : State) (k j : Nat) (x : ArrayUnit) (h : j ≠ k) : (s.setArray k x).array j = s.array j := by
  simp [State.array, State.setArray, h]
@[simp] theorem State.setArray_setArray (s : State) (k : Nat) (x y : ArrayUnit) : (s.setArray k x).setArray k y = s.setArray k y := by
  simp [State.setArray]
@[simp] theorem State.array_setPcore (s : State) (k : Nat) (x : PCore) (j : Nat) : (s.setPcore k x).array j = s.array j := rfl
@[simp] theorem State.array_setRemap (s : State) (k : Nat) (x : Remap) (j : Nat) : (s.setRemap k x).array j = s.array j := rfl
@[simp] theorem State.array_setRegion (s : State) (k : Nat) (x : Region) (j : Nat) : (s.setRegion k x).array j = s.array j := rfl
@[simp] theorem State.array_setScribe (s : State) (k : Nat) (x : Scribe) (j : Nat) : (s.setScribe k x).array j = s.array j := rfl
@[simp] theorem State.array_setSlot (s : State) (k : Nat) (x : Slot) (j : Nat) : (s.setSlot k x).array j = s.array j := rfl
@[simp] theorem State.array_setHandle (s : State) (k : Nat) (x : Handle) (j : Nat) : (s.setHandle k x).array j = s.array j := rfl
@[simp] theorem State.array_setPart (s : State) (k : Nat) (x : Part) (j : Nat) : (s.setPart k x).array j = s.array j := rfl
@[simp] theorem State.array_updPart (s : State) (k : Nat) (f : Part → Part) (j : Nat) : (s.updPart k f).array j = s.array j := rfl
@[simp] theorem State.array_setPort (s : State) (k : Nat) (x : Port) (j : Nat) : (s.setPort k x).array j = s.array j := rfl
@[simp] theorem State.array_setStack (s : State) (k : Nat) (x : Stack) (j : Nat) : (s.setStack k x).array j = s.array j := rfl
@[simp] theorem State.array_setPage (s : State) (k : Nat) (x : Page) (j : Nat) : (s.setPage k x).array j = s.array j := rfl
@[simp] theorem State.array_setJob (s : State) (k : Nat) (x : Job) (j : Nat) : (s.setJob k x).array j = s.array j := rfl
@[simp] theorem State.array_setReg (s : State) (k o : Nat) (x : W32) (j : Nat) : (s.setReg k o x).array j = s.array j := rfl
@[simp] theorem State.array_nextFree (s : State)  (j : Nat) : (s.nextFree).array j = s.array j := rfl

@[simp] theorem State.pcore_setPcore_self (s : State) (k : Nat) (x : PCore) : (s.setPcore k x).pcore k = x := by
  simp [State.pcore, State.setPcore]
theorem State.pcore_setPcore_ne (s : State) (k j : Nat) (x : PCore) (h : j ≠ k) : (s.setPcore k x).pcore j = s.pcore j := by
  simp [State.pcore, State.setPcore, h]
@[simp] theorem State.setPcore_setPcore (s : State) (k : Nat) (x y : PCore) : (s.setPcore k x).setPcore k y = s.setPcore k y := by
  simp [State.setPcore]
@[simp] theorem State.pcore_setArray (s : State) (k : Nat) (x : ArrayUnit) (j : Nat) : (s.setArray k x).pcore j = s.pcore j := rfl
@[simp] theorem State.pcore_setRemap (s : State) (k : Nat) (x : Remap) (j : Nat) : (s.setRemap k x).pcore j = s.pcore j := rfl
@[simp] theorem State.pcore_setRegion (s : State) (k : Nat) (x : Region) (j : Nat) : (s.setRegion k x).pcore j = s.pcore j := rfl
@[simp] theorem State.pcore_setScribe (s : State) (k : Nat) (x : Scribe) (j : Nat) : (s.setScribe k x).pcore j = s.pcore j := rfl
@[simp] theorem State.pcore_setSlot (s : State) (k : Nat) (x : Slot) (j : Nat) : (s.setSlot k x).pcore j = s.pcore j := rfl
@[simp] theorem State.pcore_setHandle (s : State) (k : Nat) (x : Handle) (j : Nat) : (s.setHandle k x).pcore j = s.pcore j := rfl
@[simp] theorem State.pcore_setPart (s : State) (k : Nat) (x : Part) (j : Nat) : (s.setPart k x).pcore j = s.pcore j := rfl
@[simp] theorem State.pcore_updPart (s : State) (k : Nat) (f : Part → Part) (j : Nat) : (s.updPart k f).pcore j = s.pcore j := rfl
@[simp] theorem State.pcore_setPort (s : State) (k : Nat) (x : Port) (j : Nat) : (s.setPort k x).pcore j = s.pcore j := rfl
@[simp] theorem State.pcore_setStack (s : State) (k : Nat) (x : Stack) (j : Nat) : (s.setStack k x).pcore j = s.pcore j := rfl
@[simp] theorem State.pcore_setPage (s : State) (k : Nat) (x : Page) (j : Nat) : (s.setPage k x).pcore j = s.pcore j := rfl
@[simp] theorem State.pcore_setJob (s : State) (k : Nat) (x : Job) (j : Nat) : (s.setJob k x).pcore j = s.pcore j := rfl
@[simp] theorem State.pcore_setReg (s : State) (k o : Nat) (x : W32) (j : Nat) : (s.setReg k o x).pcore j = s.pcore j := rfl
@[simp] theorem State.pcore_nextFree (s : State)  (j : Nat) : (s.nextFree).pcore j = s.pcore j := rfl

@[simp] theorem State.remapOf_setRemap_self (s : State) (k : Nat) (x : Remap) : (s.setRemap k x).remapOf k = x := by
  simp [State.remapOf, State.setRemap]
theorem State.remapOf_setRemap_ne (s : State) (k j : Nat) (x : Remap) (h : j ≠ k) : (s.setRemap k x).remapOf j = s.remapOf j := by
  simp [State.remapOf, State.setRemap, h]
@[simp] theorem State.setRemap_setRemap (s : State) (k : Nat) (x y : Remap) : (s.setRemap k x).setRemap k y = s.setRemap k y := by
  simp [State.setRemap]
@[simp] theorem State.remapOf_setArray (s : State) (k : Nat) (x : ArrayUnit) (j : Nat) : (s.setArray k x).remapOf j = s.remapOf j := rfl
@[simp] theorem State.remapOf_setPcore (s : State) (k : Nat) (x : PCore) (j : Nat) : (s.setPcore k x).remapOf j = s.remapOf j := rfl
@[simp] theorem State.remapOf_setRegion (s : State) (k : Nat) (x : Region) (j : Nat) : (s.setRegion k x).remapOf j = s.remapOf j := rfl
@[simp] theorem State.remapOf_setScribe (s : State) (k : Nat) (x : Scribe) (j : Nat) : (s.setScribe k x).remapOf j = s.remapOf j := rfl
@[simp] theorem State.remapOf_setSlot (s : State) (k : Nat) (x : Slot) (j : Nat) : (s.setSlot k x).remapOf j = s.remapOf j := rfl
@[simp] theorem State.remapOf_setHandle (s : State) (k : Nat) (x : Handle) (j : Nat) : (s.setHandle k x).remapOf j = s.remapOf j := rfl
@[simp] theorem State.remapOf_setPart (s : State) (k : Nat) (x : Part) (j : Nat) : (s.setPart k x).remapOf j = s.remapOf j := rfl
@[simp] theorem State.remapOf_updPart (s : State) (k : Nat) (f : Part → Part) (j : Nat) : (s.updPart k f).remapOf j = s.remapOf j := rfl
@[simp] theorem State.remapOf_setPort (s : State) (k : Nat) (x : Port) (j : Nat) : (s.setPort k x).remapOf j = s.remapOf j := rfl
@[simp] theorem State.remapOf_setStack (s : State) (k : Nat) (x : Stack) (j : Nat) : (s.setStack k x).remapOf j = s.remapOf j := rfl
@[simp] theorem State.remapOf_setPage (s : State) (k : Nat) (x : Page) (j : Nat) : (s.setPage k x).remapOf j = s.remapOf j := rfl
@[simp] theorem State.remapOf_setJob (s : State) (k : Nat) (x : Job) (j : Nat) : (s.setJob k x).remapOf j = s.remapOf j := rfl
@[simp] theorem State.remapOf_setReg (s : State) (k o : Nat) (x : W32) (j : Nat) : (s.setReg k o x).remapOf j = s.remapOf j := rfl
@[simp] theorem State.remapOf_nextFree (s : State)  (j : Nat) : (s.nextFree).remapOf j = s.remapOf j := rfl

@[simp] theorem State.region_setRegion_self (s : State) (k : Nat) (x : Region) : (s.setRegion k x).region k = x := by
  simp [State.region, State.setRegion]
theorem State.region_setRegion_ne (s : State) (k j : Nat) (x : Region) (h : j ≠ k) : (s.setRegion k x).region j = s.region j := by
  simp [State.region, State.setRegion, h]
@[simp] theorem State.setRegion_setRegion (s : State) (k : Nat) (x y : Region) : (s.setRegion k x).setRegion k y = s.setRegion k y := by
  simp [State.setRegion]
@[simp] theorem State.region_setArray (s : State) (k : Nat) (x : ArrayUnit) (j : Nat) : (s.setArray k x).region j = s.region j := rfl
@[simp] theorem State.region_setPcore (s : State) (k : Nat) (x : PCore) (j : Nat) : (s.setPcore k x).region j = s.region j := rfl
@[simp] theorem State.region_setRemap (s : State) (k : Nat) (x : Remap) (j : Nat) : (s.setRemap k x).region j = s.region j := rfl
@[simp] theorem State.region_setScribe (s : State) (k : Nat) (x : Scribe) (j : Nat) : (s.setScribe k x).region j = s.region j := rfl
@[simp] theorem State.region_setSlot (s : State) (k : Nat) (x : Slot) (j : Nat) : (s.setSlot k x).region j = s.region j := rfl
@[simp] theorem State.region_setHandle (s : State) (k : Nat) (x : Handle) (j : Nat) : (s.setHandle k x).region j = s.region j := rfl
@[simp] theorem State.region_setPart (s : State) (k : Nat) (x : Part) (j : Nat) : (s.setPart k x).region j = s.region j := rfl
@[simp] theorem State.region_updPart (s : State) (k : Nat) (f : Part → Part) (j : Nat) : (s.updPart k f).region j = s.region j := rfl
@[simp] theorem State.region_setPort (s : State) (k : Nat) (x : Port) (j : Nat) : (s.setPort k x).region j = s.region j := rfl
@[simp] theorem State.region_setStack (s : State) (k : Nat) (x : Stack) (j : Nat) : (s.setStack k x).region j = s.region j := rfl
@[simp] theorem State.region_setPage (s : State) (k : Nat) (x : Page) (j : Nat) : (s.setPage k x).region j = s.region j := rfl
@[simp] theorem State.region_setJob (s : State) (k : Nat) (x : Job) (j : Nat) : (s.setJob k x).region j = s.region j := rfl
@[simp] theorem State.region_setReg (s : State) (k o : Nat) (x : W32) (j : Nat) : (s.setReg k o x).region j = s.region j := rfl
@[simp] theorem State.region_nextFree (s : State)  (j : Nat) : (s.nextFree).region j = s.region j := rfl

@[simp] theorem State.scribe_setScribe_self (s : State) (k : Nat) (x : Scribe) : (s.setScribe k x).scribe k = x := by
  simp [State.scribe, State.setScribe]
theorem State.scribe_setScribe_ne (s : State) (k j : Nat) (x : Scribe) (h : j ≠ k) : (s.setScribe k x).scribe j = s.scribe j := by
  simp [State.scribe, State.setScribe, h]
@[simp] theorem State.setScribe_setScribe (s : State) (k : Nat) (x y : Scribe) : (s.setScribe k x).setScribe k y = s.setScribe k y := by
  simp [State.setScribe]
@[simp] theorem State.scribe_setArray (s : State) (k : Nat) (x : ArrayUnit) (j : Nat) : (s.setArray k x).scribe j = s.scribe j := rfl
@[simp] theorem State.scribe_setPcore (s : State) (k : Nat) (x : PCore) (j : Nat) : (s.setPcore k x).scribe j = s.scribe j := rfl
@[simp] theorem State.scribe_setRemap (s : State) (k : Nat) (x : Remap) (j : Nat) : (s.setRemap k x).scribe j = s.scribe j := rfl
@[simp] theorem State.scribe_setRegion (s : State) (k : Nat) (x : Region) (j : Nat) : (s.setRegion k x).scribe j = s.scribe j := rfl
@[simp] theorem State.scribe_setSlot (s : State) (k : Nat) (x : Slot) (j : Nat) : (s.setSlot k x).scribe j = s.scribe j := rfl
@[simp] theorem State.scribe_setHandle (s : State) (k : Nat) (x : Handle) (j : Nat) : (s.setHandle k x).scribe j = s.scribe j := rfl
@[simp] theorem State.scribe_setPart (s : State) (k : Nat) (x : Part) (j : Nat) : (s.setPart k x).scribe j = s.scribe j := rfl
@[simp] theorem State.scribe_updPart (s : State) (k : Nat) (f : Part → Part) (j : Nat) : (s.updPart k f).scribe j = s.scribe j := rfl
@[simp] theorem State.scribe_setPort (s : State) (k : Nat) (x : Port) (j : Nat) : (s.setPort k x).scribe j = s.scribe j := rfl
@[simp] theorem State.scribe_setStack (s : State) (k : Nat) (x : Stack) (j : Nat) : (s.setStack k x).scribe j = s.scribe j := rfl
@[simp] theorem State.scribe_setPage (s : State) (k : Nat) (x : Page) (j : Nat) : (s.setPage k x).scribe j = s.scribe j := rfl
@[simp] theorem State.scribe_setJob (s : State) (k : Nat) (x : Job) (j : Nat) : (s.setJob k x).scribe j = s.scribe j := rfl
@[simp] theorem State.scribe_setReg (s : State) (k o : Nat) (x : W32) (j : Nat) : (s.setReg k o x).scribe j = s.scribe j := rfl
@[simp] theorem State.scribe_nextFree (s : State)  (j : Nat) : (s.nextFree).scribe j = s.scribe j := rfl

@[simp] theorem State.slot_setSlot_self (s : State) (k : Nat) (x : Slot) : (s.setSlot k x).slot k = x := by
  simp [State.slot, State.setSlot]
theorem State.slot_setSlot_ne (s : State) (k j : Nat) (x : Slot) (h : j ≠ k) : (s.setSlot k x).slot j = s.slot j := by
  simp [State.slot, State.setSlot, h]
@[simp] theorem State.setSlot_setSlot (s : State) (k : Nat) (x y : Slot) : (s.setSlot k x).setSlot k y = s.setSlot k y := by
  simp [State.setSlot]
@[simp] theorem State.slot_setArray (s : State) (k : Nat) (x : ArrayUnit) (j : Nat) : (s.setArray k x).slot j = s.slot j := rfl
@[simp] theorem State.slot_setPcore (s : State) (k : Nat) (x : PCore) (j : Nat) : (s.setPcore k x).slot j = s.slot j := rfl
@[simp] theorem State.slot_setRemap (s : State) (k : Nat) (x : Remap) (j : Nat) : (s.setRemap k x).slot j = s.slot j := rfl
@[simp] theorem State.slot_setRegion (s : State) (k : Nat) (x : Region) (j : Nat) : (s.setRegion k x).slot j = s.slot j := rfl
@[simp] theorem State.slot_setScribe (s : State) (k : Nat) (x : Scribe) (j : Nat) : (s.setScribe k x).slot j = s.slot j := rfl
@[simp] theorem State.slot_setHandle (s : State) (k : Nat) (x : Handle) (j : Nat) : (s.setHandle k x).slot j = s.slot j := rfl
@[simp] theorem State.slot_setPart (s : State) (k : Nat) (x : Part) (j : Nat) : (s.setPart k x).slot j = s.slot j := rfl
@[simp] theorem State.slot_updPart (s : State) (k : Nat) (f : Part → Part) (j : Nat) : (s.updPart k f).slot j = s.slot j := rfl
@[simp] theorem State.slot_setPort (s : State) (k : Nat) (x : Port) (j : Nat) : (s.setPort k x).slot j = s.slot j := rfl
@[simp] theorem State.slot_setStack (s : State) (k : Nat) (x : Stack) (j : Nat) : (s.setStack k x).slot j = s.slot j := rfl
@[simp] theorem State.slot_setPage (s : State) (k : Nat) (x : Page) (j : Nat) : (s.setPage k x).slot j = s.slot j := rfl
@[simp] theorem State.slot_setJob (s : State) (k : Nat) (x : Job) (j : Nat) : (s.setJob k x).slot j = s.slot j := rfl
@[simp] theorem State.slot_setReg (s : State) (k o : Nat) (x : W32) (j : Nat) : (s.setReg k o x).slot j = s.slot j := rfl
@[simp] theorem State.slot_nextFree (s : State)  (j : Nat) : (s.nextFree).slot j = s.slot j := rfl

@[simp] theorem State.handle_setHandle_self (s : State) (k : Nat) (x : Handle) : (s.setHandle k x).handle k = x := by
  simp [State.handle, State.setHandle]
theorem State.handle_setHandle_ne (s : State) (k j : Nat) (x : Handle) (h : j ≠ k) : (s.setHandle k x).handle j = s.handle j := by
  simp [State.handle, State.setHandle, h]
@[simp] theorem State.setHandle_setHandle (s : State) (k : Nat) (x y : Handle) : (s.setHandle k x).setHandle k y = s.setHandle k y := by
  simp [State.setHandle]
@[simp] theorem State.handle_setArray (s : State) (k : Nat) (x : ArrayUnit) (j : Nat) : (s.setArray k x).handle j = s.handle j := rfl
@[simp] theorem State.handle_setPcore (s : State) (k : Nat) (x : PCore) (j : Nat) : (s.setPcore k x).handle j = s.handle j := rfl
@[simp] theorem State.handle_setRemap (s : State) (k : Nat) (x : Remap) (j : Nat) : (s.setRemap k x).handle j = s.handle j := rfl
@[simp] theorem State.handle_setRegion (s : State) (k : Nat) (x : Region) (j : Nat) : (s.setRegion k x).handle j = s.handle j := rfl
@[simp] theorem State.handle_setScribe (s : State) (k : Nat) (x : Scribe) (j : Nat) : (s.setScribe k x).handle j = s.handle j := rfl
@[simp] theorem State.handle_setSlot (s : State) (k : Nat) (x : Slot) (j : Nat) : (s.setSlot k x).handle j = s.handle j := rfl
@[simp] theorem State.handle_setPart (s : State) (k : Nat) (x : Part) (j : Nat) : (s.setPart k x).handle j = s.handle j := rfl
@[simp] theorem State.handle_updPart (s : State) (k : Nat) (f : Part → Part) (j : Nat) : (s.updPart k f).handle j = s.handle j := rfl
@[simp] theorem State.handle_setPort (s : State) (k : Nat) (x : Port) (j : Nat) : (s.setPort k x).handle j = s.handle j := rfl
@[simp] theorem State.handle_setStack (s : State) (k : Nat) (x : Stack) (j : Nat) : (s.setStack k x).handle j = s.handle j := rfl
@[simp] theorem State.handle_setPage (s : State) (k : Nat) (x : Page) (j : Nat) : (s.setPage k x).handle j = s.handle j := rfl
@[simp] theorem State.handle_setJob (s : State) (k : Nat) (x : Job) (j : Nat) : (s.setJob k x).handle j = s.handle j := rfl
@[simp] theorem State.handle_setReg (s : State) (k o : Nat) (x : W32) (j : Nat) : (s.setReg k o x).handle j = s.handle j := rfl
@[simp] theorem State.handle_nextFree (s : State)  (j : Nat) : (s.nextFree).handle j = s.handle j := rfl

@[simp] theorem State.part_setPart_self (s : State) (k : Nat) (x : Part) : (s.setPart k x).part k = x := by
  simp [State.part, State.setPart]
theorem State.part_setPart_ne (s : State) (k j : Nat) (x : Part) (h : j ≠ k) : (s.setPart k x).part j = s.part j := by
  simp [State.part, State.setPart, h]
@[simp] theorem State.setPart_setPart (s : State) (k : Nat) (x y : Part) : (s.setPart k x).setPart k y = s.setPart k y := by
  simp [State.setPart]
@[simp] theorem State.part_setArray (s : State) (k : Nat) (x : ArrayUnit) (j : Nat) : (s.setArray k x).part j = s.part j := rfl
@[simp] theorem State.part_setPcore (s : State) (k : Nat) (x : PCore) (j : Nat) : (s.setPcore k x).part j = s.part j := rfl
@[simp] theorem State.part_setRemap (s : State) (k : Nat) (x : Remap) (j : Nat) : (s.setRemap k x).part j = s.part j := rfl
@[simp] theorem State.part_setRegion (s : State) (k : Nat) (x : Region) (j : Nat) : (s.setRegion k x).part j = s.part j := rfl
@[simp] theorem State.part_setScribe (s : State) (k : Nat) (x : Scribe) (j : Nat) : (s.setScribe k x).part j = s.part j := rfl
@[simp] theorem State.part_setSlot (s : State) (k : Nat) (x : Slot) (j : Nat) : (s.setSlot k x).part j = s.part j := rfl
@[simp] theorem State.part_setHandle (s : State) (k : Nat) (x : Handle) (j : Nat) : (s.setHandle k x).part j = s.part j := rfl
@[simp] theorem State.part_setPort (s : State) (k : Nat) (x : Port) (j : Nat) : (s.setPort k x).part j = s.part j := rfl
@[simp] theorem State.part_setStack (s : State) (k : Nat) (x : Stack) (j : Nat) : (s.setStack k x).part j = s.part j := rfl
@[simp] theorem State.part_setPage (s : State) (k : Nat) (x : Page) (j : Nat) : (s.setPage k x).part j = s.part j := rfl
@[simp] theorem State.part_setReg (s : State) (k o : Nat) (x : W32) (j : Nat) : (s.setReg k o x).part j = s.part j := rfl
@[simp] theorem State.part_nextFree (s : State)  (j : Nat) : (s.nextFree).part j = s.part j := rfl

@[simp] theorem State.port_setPort_self (s : State) (k : Nat) (x : Port) : (s.setPort k x).port k = x := by
  simp [State.port, State.setPort]
theorem State.port_setPort_ne (s : State) (k j : Nat) (x : Port) (h : j ≠ k) : (s.setPort k x).port j = s.port j := by
  simp [State.port, State.setPort, h]
@[simp] theorem State.setPort_setPort (s : State) (k : Nat) (x y : Port) : (s.setPort k x).setPort k y = s.setPort k y := by
  simp [State.setPort]
@[simp] theorem State.port_setArray (s : State) (k : Nat) (x : ArrayUnit) (j : Nat) : (s.setArray k x).port j = s.port j := rfl
@[simp] theorem State.port_setPcore (s : State) (k : Nat) (x : PCore) (j : Nat) : (s.setPcore k x).port j = s.port j := rfl
@[simp] theorem State.port_setRemap (s : State) (k : Nat) (x : Remap) (j : Nat) : (s.setRemap k x).port j = s.port j := rfl
@[simp] theorem State.port_setRegion (s : State) (k : Nat) (x : Region) (j : Nat) : (s.setRegion k x).port j = s.port j := rfl
@[simp] theorem State.port_setScribe (s : State) (k : Nat) (x : Scribe) (j : Nat) : (s.setScribe k x).port j = s.port j := rfl
@[simp] theorem State.port_setSlot (s : State) (k : Nat) (x : Slot) (j : Nat) : (s.setSlot k x).port j = s.port j := rfl
@[simp] theorem State.port_setHandle (s : State) (k : Nat) (x : Handle) (j : Nat) : (s.setHandle k x).port j = s.port j := rfl
@[simp] theorem State.port_setPart (s : State) (k : Nat) (x : Part) (j : Nat) : (s.setPart k x).port j = s.port j := rfl
@[simp] theorem State.port_updPart (s : State) (k : Nat) (f : Part → Part) (j : Nat) : (s.updPart k f).port j = s.port j := rfl
@[simp] theorem State.port_setStack (s : State) (k : Nat) (x : Stack) (j : Nat) : (s.setStack k x).port j = s.port j := rfl
@[simp] theorem State.port_setPage (s : State) (k : Nat) (x : Page) (j : Nat) : (s.setPage k x).port j = s.port j := rfl
@[simp] theorem State.port_setJob (s : State) (k : Nat) (x : Job) (j : Nat) : (s.setJob k x).port j = s.port j := rfl
@[simp] theorem State.port_setReg (s : State) (k o : Nat) (x : W32) (j : Nat) : (s.setReg k o x).port j = s.port j := rfl
@[simp] theorem State.port_nextFree (s : State)  (j : Nat) : (s.nextFree).port j = s.port j := rfl

@[simp] theorem State.stack_setStack_self (s : State) (k : Nat) (x : Stack) : (s.setStack k x).stack k = x := by
  simp [State.stack, State.setStack]
theorem State.stack_setStack_ne (s : State) (k j : Nat) (x : Stack) (h : j ≠ k) : (s.setStack k x).stack j = s.stack j := by
  simp [State.stack, State.setStack, h]
@[simp] theorem State.setStack_setStack (s : State) (k : Nat) (x y : Stack) : (s.setStack k x).setStack k y = s.setStack k y := by
  simp [State.setStack]
@[simp] theorem State.stack_setArray (s : State) (k : Nat) (x : ArrayUnit) (j : Nat) : (s.setArray k x).stack j = s.stack j := rfl
@[simp] theorem State.stack_setPcore (s : State) (k : Nat) (x : PCore) (j : Nat) : (s.setPcore k x).stack j = s.stack j := rfl
@[simp] theorem State.stack_setRemap (s : State) (k : Nat) (x : Remap) (j : Nat) : (s.setRemap k x).stack j = s.stack j := rfl
@[simp] theorem State.stack_setRegion (s : State) (k : Nat) (x : Region) (j : Nat) : (s.setRegion k x).stack j = s.stack j := rfl
@[simp] theorem State.stack_setScribe (s : State) (k : Nat) (x : Scribe) (j : Nat) : (s.setScribe k x).stack j = s.stack j := rfl
@[simp] theorem State.stack_setSlot (s : State) (k : Nat) (x : Slot) (j : Nat) : (s.setSlot k x).stack j = s.stack j := rfl
@[simp] theorem State.stack_setHandle (s : State) (k : Nat) (x : Handle) (j : Nat) : (s.setHandle k x).stack j = s.stack j := rfl
@[simp] theorem State.stack_setPart (s : State) (k : Nat) (x : Part) (j : Nat) : (s.setPart k x).stack j = s.stack j := rfl
@[simp] theorem State.stack_updPart (s : State) (k : Nat) (f : Part → Part) (j : Nat) : (s.updPart k f).stack j = s.stack j := rfl
@[simp] theorem State.stack_setPort (s : State) (k : Nat) (x : Port) (j : Nat) : (s.setPort k x).stack j = s.stack j := rfl
@[simp] theorem State.stack_setPage (s : State) (k : Nat) (x : Page) (j : Nat) : (s.setPage k x).stack j = s.stack j := rfl
@[simp] theorem State.stack_setJob (s : State) (k : Nat) (x : Job) (j : Nat) : (s.setJob k x).stack j = s.stack j := rfl
@[simp] theorem State.stack_setReg (s : State) (k o : Nat) (x : W32) (j : Nat) : (s.setReg k o x).stack j = s.stack j := rfl
@[simp] theorem State.stack_nextFree (s : State)  (j : Nat) : (s.nextFree).stack j = s.stack j := rfl

@[simp] theorem State.page_setPage_self (s : State) (k : Nat) (x : Page) : (s.setPage k x).page k = x := by
  simp [State.page, State.setPage]
theorem State.page_setPage_ne (s : State) (k j : Nat) (x : Page) (h : j ≠ k) : (s.setPage k x).page j = s.page j := by
  simp [State.page, State.setPage, h]
@[simp] theorem State.setPage_setPage (s : State) (k : Nat) (x y : Page) : (s.setPage k x).setPage k y = s.setPage k y := by
  simp [State.setPage]
@[simp] theorem State.page_setArray (s : State) (k : Nat) (x : ArrayUnit) (j : Nat) : (s.setArray k x).page j = s.page j := rfl
@[simp] theorem State.page_setPcore (s : State) (k : Nat) (x : PCore) (j : Nat) : (s.setPcore k x).page j = s.page j := rfl
@[simp] theorem State.page_setRemap (s : State) (k : Nat) (x : Remap) (j : Nat) : (s.setRemap k x).page j = s.page j := rfl
@[simp] theorem State.page_setRegion (s : State) (k : Nat) (x : Region) (j : Nat) : (s.setRegion k x).page j = s.page j := rfl
@[simp] theorem State.page_setScribe (s : State) (k : Nat) (x : Scribe) (j : Nat) : (s.setScribe k x).page j = s.page j := rfl
@[simp] theorem State.page_setSlot (s : State) (k : Nat) (x : Slot) (j : Nat) : (s.setSlot k x).page j = s.page j := rfl
@[simp] theorem State.page_setHandle (s : State) (k : Nat) (x : Handle) (j : Nat) : (s.setHandle k x).page j = s.page j := rfl
@[simp] theorem State.page_setPart (s : State) (k : Nat) (x : Part) (j : Nat) : (s.setPart k x).page j = s.page j := rfl
@[simp] theorem State.page_updPart (s : State) (k : Nat) (f : Part → Part) (j : Nat) : (s.updPart k f).page j = s.page j := rfl
@[simp] theorem State.page_setPort (s : State) (k : Nat) (x : Port) (j : Nat) : (s.setPort k x).page j = s.page j := rfl
@[simp] theorem State.page_setStack (s : State) (k : Nat) (x : Stack) (j : Nat) : (s.setStack k x).page j = s.page j := rfl
@[simp] theorem State.page_setJob (s : State) (k : Nat) (x : Job) (j : Nat) : (s.setJob k x).page j = s.page j := rfl
@[simp] theorem State.page_setReg (s : State) (k o : Nat) (x : W32) (j : Nat) : (s.setReg k o x).page j = s.page j := rfl
@[simp] theorem State.page_nextFree (s : State)  (j : Nat) : (s.nextFree).page j = s.page j := rfl

@[simp] theorem State.part_updPart_self (s : State) (k : Nat) (f : Part → Part) : (s.updPart k f).part k = f (s.part k) := by
  simp [State.updPart]
theorem State.part_updPart_ne (s : State) (k j : Nat) (f : Part → Part) (h : j ≠ k) : (s.updPart k f).part j = s.part j := by
  simp [State.updPart, State.part_setPart_ne _ _ _ _ h]
@[simp] theorem State.job_setJob_self (s : State) (k : Nat) (x : Job) : (s.setJob k x).job k = some x := by
  simp [State.job, State.setJob]
theorem State.job_setJob_ne (s : State) (k j : Nat) (x : Job) (h : j ≠ k) : (s.setJob k x).job j = s.job j := by
  simp [State.job, State.setJob, State.part_updPart_ne _ _ _ _ h]

end Sys2Proof.Machine
end

