-- ==== Sys2Proof/Laws/Scribes.lean ====
section
/-! SUPPORT. The laws of scribes: register reads after writes, and what an instruction that issues leaves. -/

namespace Sys2Proof.Machine

/-! ### Architectural registers -/

@[simp] theorem Arch.g_zero (a : Arch) (l : Nat) : a.g_ l 0 = 0#64 := rfl
@[simp] theorem Arch.p_zero (a : Arch) (l : Nat) : a.p_ l 0 = true := rfl
@[simp] theorem Arch.setG_zero (a : Arch) (x : W64) : a.setG 0 x = a := rfl
@[simp] theorem Arch.setP_zero (a : Arch) (x : Bool) : a.setP 0 x = a := rfl

theorem Arch.g_setG (a : Arch) (l n m : Nat) (x : W64) :
    (a.setG n x).g_ l m = if m = n ∧ n ≠ 0 then x else a.g_ l m := by
  by_cases hn : n = 0
  · simp [Arch.setG, hn]
  · by_cases hm : m = n
    · subst hm; simp [Arch.setG, Arch.g_, hn]
    · simp [Arch.setG, Arch.g_, hn, hm]

theorem Arch.p_setP (a : Arch) (l n m : Nat) (x : Bool) :
    (a.setP n x).p_ l m = if m = n ∧ n ≠ 0 then x else a.p_ l m := by
  by_cases hn : n = 0
  · simp [Arch.setP, hn]
  · by_cases hm : m = n
    · subst hm; simp [Arch.setP, Arch.p_, hn]
    · simp [Arch.setP, Arch.p_, hn, hm]

theorem Arch.a_setA (a : Arch) (l n m : Nat) (x : W64) : (a.setA n x).a_ l m = if m = n then x else a.a_ l m := by
  by_cases hm : m = n
  · subst hm; simp [Arch.setA, Arch.a_]
  · simp only [Arch.setA, Arch.a_, Tbl.getD_set_ne _ _ _ _ _ hm, if_neg hm]; rfl

theorem Arch.v_setV (a : Arch) (l n m : Nat) (x : W2048) : (a.setV n x).v_ l m = if m = n then x else a.v_ l m := by
  by_cases hm : m = n
  · subst hm; simp [Arch.setV, Arch.v_]
  · simp only [Arch.setV, Arch.v_, Tbl.getD_set_ne _ _ _ _ _ hm, if_neg hm]; rfl

/-! ### Issue -/

/-- The conditions of `issues`, one by one. -/
theorem issues_iff (c : Opcode) (i : Issue) (s : State) :
    issues c i s = true ↔
      (s.scribe i.lcore).mode = .running ∧ (s.scribe i.lcore).atBar = false ∧ fetched c i s = true
        ∧ (s.scribe i.lcore).pc < (s.scribe i.lcore).nInstr ∧ opOk c i.f = true
        ∧ (s.scribe i.lcore).arch.p_ i.lcore i.f.guard.toNat = true
        ∧ scoreboard s i.lcore (opRefs c i.f) = false ∧ i.hw = .ok ∧ i.hwOther = .ok ∧ i.sameDigest = none := by
  simp [issues, and_assoc]

/-- Where the inline checks find nothing, they change nothing. -/
theorem applyHw_ok (s : State) (i : Issue) (n : Nat) (loc : FaultUnit × SuspectSet) (h : i.hw = .ok) (h' : i.hwOther = .ok)
    (h'' : i.sameDigest = none) : applyHw s i n loc = s := by
  simp [applyHw, h, h', h'']

/-- An instruction that issues does what its own part says, with no check between. -/
theorem issueAt_issues (c : Opcode) (i : Issue) (s : State) (loc : Scribe → State → FaultUnit × SuspectSet)
    (act : Scribe → State → Ran) (h : issues c i s = true) :
    issueAt c i s loc act =
      match act (s.scribe i.lcore) s with
      | .wait => s
      | .fault code addr => progFault s i.lcore code addr (s.scribe i.lcore).pc
      | .jump t target => branchTo t i.lcore target
      | .stays t => t
      | .done t => retire t i.lcore := by
  obtain ⟨h1, h2, h0, h3, h4, h5, h6, h7, h8, h9⟩ := (issues_iff c i s).mp h
  have h3' : ¬ (s.scribe i.lcore).nInstr ≤ (s.scribe i.lcore).pc := by omega
  simp only [issueAt, h0, h1, h2, h3', h4, h5, h6, applyHw_ok _ i _ _ h7 h8 h9]
  simp <;> rfl

theorem issue_issues (c : Opcode) (i : Issue) (s : State) (act : Scribe → State → Ran) (h : issues c i s = true) :
    issue c i s act =
      .next (match act (s.scribe i.lcore) s with
      | .wait => s
      | .fault code addr => progFault s i.lcore code addr (s.scribe i.lcore).pc
      | .jump t target => branchTo t i.lcore target
      | .stays t => t
      | .done t => retire t i.lcore) := by
  rw [issue, issueAt_issues c i s _ act h]

/-- Retiring after a write of the scribe. -/
theorem retire_setScribe (s : State) (l : Nat) (x : Scribe) : retire (s.setScribe l x) l = retiredAs s l x := by
  simp [retire, retiredAs]

theorem retire_eq (s : State) (l : Nat) : retire s l = retiredAs s l (s.scribe l) := rfl

/-- An instruction whose whole effect is on the registers leaves the rest of the state alone. -/
theorem archOp_issues (c : Opcode) (i : Issue) (s : State) (f : Scribe → Arch) (h : issues c i s = true) :
    archOp c i s f = .next (retired s i.lcore (f (s.scribe i.lcore))) := by
  rw [archOp, issue_issues c i s _ h]
  simp only [retire_setScribe]
  rfl

theorem archOp?_issues (c : Opcode) (i : Issue) (s : State) (f : Scribe → Option Arch) (a : Arch) (h : issues c i s = true)
    (ha : f (s.scribe i.lcore) = some a) : archOp? c i s f = .next (retired s i.lcore a) := by
  rw [archOp?, issue_issues c i s _ h]
  simp only [ha, retire_setScribe]
  rfl

@[simp] theorem retiredAs_scribe (s : State) (l : Nat) (x : Scribe) :
    (retiredAs s l x).scribe l = { x with loops := (loopEnd x.loops x.pc).1, pc := (loopEnd x.loops x.pc).2 } := by
  simp [retiredAs]

/-- A scribe that is not running, that waits in a barrier, or whose role holds another word at the pc, issues nothing. -/
theorem issueAt_held (c : Opcode) (i : Issue) (s : State) (loc : Scribe → State → FaultUnit × SuspectSet)
    (act : Scribe → State → Ran)
    (h : (s.scribe i.lcore).mode ≠ .running ∨ (s.scribe i.lcore).atBar = true ∨ fetched c i s = false) :
    issueAt c i s loc act = s := by
  unfold issueAt
  rw [if_pos]
  rcases h with h | h | h <;> simp [h]

end Sys2Proof.Machine
end

