-- ==== Sys2Proof/Laws/Formats.lean ====
section
/-! SUPPORT. The laws of packed registers: an element of a packed register is the element packed, and registers read back after a
group of them is written. -/

namespace Sys2Proof.Machine

theorem packNat_div (w : Nat) (xs : List Nat) (j : Nat) : packNat w xs / 2 ^ (w * j) % 2 ^ w = xs.getD j 0 % 2 ^ w := by
  induction xs generalizing j with
  | nil => simp [packNat]
  | cons x xs ih =>
    cases j with
    | zero => simp [packNat, Nat.add_mul_mod_self_left]
    | succ j =>
      have h : packNat w (x :: xs) / 2 ^ w = packNat w xs := by
        have hp : 0 < 2 ^ w := by positivity
        simp only [packNat]
        rw [Nat.add_mul_div_left _ _ hp, Nat.div_eq_of_lt (Nat.mod_lt _ hp), Nat.zero_add]
      rw [Nat.mul_succ, Nat.add_comm (w * j) w, Nat.pow_add, ← Nat.div_div_eq_div_mul, h, ih j, List.getD_cons_succ]

/-- Element `j` of a register packed from `xs`. -/
theorem elem_packV (w : Nat) (xs : List Nat) (j : Nat) (h : w * j + w ≤ 2048) :
    elem w (packV w xs) j = BitVec.ofNat w (xs.getD j 0) := by
  apply BitVec.eq_of_toNat_eq
  simp only [elem, packV, BitVec.extractLsb'_toNat, BitVec.toNat_ofNat, Nat.shiftRight_eq_div_pow]
  rw [← packNat_div w xs j]
  have e : 2048 = w * j + (2048 - w * j) := by omega
  have e2 : 2 ^ 2048 = 2 ^ (w * j) * 2 ^ (2048 - w * j) := by rw [← Nat.pow_add, ← e]
  have d : 2 ^ w ∣ 2 ^ (2048 - w * j) := Nat.pow_dvd_pow 2 (by omega)
  rw [show packNat w xs % 2 ^ 2048 = packNat w xs % (2 ^ (w * j) * 2 ^ (2048 - w * j)) by rw [← e2]]
  rw [Nat.mod_mul_right_div_self, Nat.mod_mod_of_dvd _ d]

/-- Lane `j` of a register of 64 lanes. -/
theorem elem_ofLanes (xs : List W32) (j : Nat) (h : j < 64) : elem 32 (ofLanes xs) j = xs.getD j 0#32 := by
  rw [ofLanes, elem_packV 32 _ j (by omega), List.getD_eq_getElem?_getD, List.getD_eq_getElem?_getD, List.getElem?_map]
  cases xs[j]? <;> simp

theorem lane_map (f : Nat → W32) (j : Nat) (h : j < 64) : elem 32 (ofLanes ((List.range 64).map f)) j = f j := by
  rw [elem_ofLanes _ j h, List.getD_eq_getElem?_getD, List.getElem?_map, List.getElem?_range h]
  rfl

/-! ### Groups of registers -/

theorem Arch.setVs_rest (a : Arch) (n : Nat) (xs : List W2048) :
    (a.setVs n xs).g = a.g ∧ (a.setVs n xs).a = a.a ∧ (a.setVs n xs).t = a.t ∧ (a.setVs n xs).p = a.p
      ∧ (a.setVs n xs).epoch = a.epoch ∧ (a.setVs n xs).halted = a.halted := by
  induction xs generalizing a n with
  | nil => exact ⟨rfl, rfl, rfl, rfl, rfl, rfl⟩
  | cons x xs ih => exact ih (a.setV n x) (n + 1)

theorem Arch.v_setVs (a : Arch) (l n m : Nat) (xs : List W2048) :
    (a.setVs n xs).v_ l m = if n ≤ m ∧ m < n + xs.length then xs.getD (m - n) 0#2048 else a.v_ l m := by
  induction xs generalizing a n with
  | nil =>
    rw [if_neg]
    · rfl
    · simp
  | cons x xs ih =>
    simp only [Arch.setVs]
    rw [ih (a.setV n x) (n + 1), Arch.v_setV]
    by_cases hm : m = n
    · subst hm; simp
    · by_cases h1 : n + 1 ≤ m ∧ m < n + 1 + xs.length
      · have h2 : n ≤ m ∧ m < n + (x :: xs).length := by simp only [List.length_cons]; omega
        have h3 : m - n = (m - (n + 1)) + 1 := by omega
        rw [if_pos h1, if_pos h2, h3, List.getD_cons_succ]
      · have h2 : ¬ (n ≤ m ∧ m < n + (x :: xs).length) := by simp only [List.length_cons]; omega
        rw [if_neg h1, if_neg h2, if_neg hm]

theorem Arch.setRows_rest (a : Arch) (n r : Nat) (xs : List W2048) :
    (a.setRows n r xs).g = a.g ∧ (a.setRows n r xs).a = a.a ∧ (a.setRows n r xs).v = a.v ∧ (a.setRows n r xs).p = a.p
      ∧ (a.setRows n r xs).epoch = a.epoch ∧ (a.setRows n r xs).halted = a.halted := by
  induction xs generalizing a r with
  | nil => exact ⟨rfl, rfl, rfl, rfl, rfl, rfl⟩
  | cons x xs ih => exact ih { a with t := Tbl.set a.t (64 * n + r) x } (r + 1)

/-- Rows of the tile table after consecutive rows are written. -/
theorem Arch.t_setRows (a : Arch) (l n r m q : Nat) (xs : List W2048) :
    (a.setRows n r xs).t_ l m q
      = if 64 * n + r ≤ 64 * m + q ∧ 64 * m + q < 64 * n + r + xs.length then xs.getD (64 * m + q - (64 * n + r)) 0#2048
        else a.t_ l m q := by
  induction xs generalizing a r with
  | nil =>
    rw [if_neg]
    · rfl
    · simp
  | cons x xs ih =>
    simp only [Arch.setRows]
    rw [ih _ (r + 1)]
    by_cases hm : 64 * m + q = 64 * n + r
    · have h1 : ¬ (64 * n + (r + 1) ≤ 64 * m + q ∧ 64 * m + q < 64 * n + (r + 1) + xs.length) := by omega
      have h2 : 64 * n + r ≤ 64 * m + q ∧ 64 * m + q < 64 * n + r + (x :: xs).length := by
        simp only [List.length_cons]; omega
      rw [if_neg h1, if_pos h2]
      simp [Arch.t_, hm]
    · have ht : ({ a with t := Tbl.set a.t (64 * n + r) x } : Arch).t_ l m q = a.t_ l m q := by
        simp only [Arch.t_]
        rw [Tbl.getD_set_ne _ _ _ _ _ hm]
      by_cases h1 : 64 * n + (r + 1) ≤ 64 * m + q ∧ 64 * m + q < 64 * n + (r + 1) + xs.length
      · have h2 : 64 * n + r ≤ 64 * m + q ∧ 64 * m + q < 64 * n + r + (x :: xs).length := by
          simp only [List.length_cons]; omega
        have h3 : 64 * m + q - (64 * n + r) = (64 * m + q - (64 * n + (r + 1))) + 1 := by omega
        rw [if_pos h1, if_pos h2, h3, List.getD_cons_succ]
      · have h2 : ¬ (64 * n + r ≤ 64 * m + q ∧ 64 * m + q < 64 * n + r + (x :: xs).length) := by
          simp only [List.length_cons]; omega
        rw [if_neg h1, if_neg h2, ht]

end Sys2Proof.Machine
end

