-- ==== Sys2Proof/Laws/Orders.lean ====
section
/-! SUPPORT. What a register that carries an order does (R415, R418), what a register reads after a write, how a bring-up step ends
(R348, R349), and that writes to host memory keep its canonical form. -/

namespace Sys2Proof.Machine

/-! ### Tables and memories -/

@[simp] theorem Tbl.get?_mapVal {α : Type} (f : Nat → α → α) (t : Tbl α) (i : Nat) :
    Tbl.get? (Tbl.mapVal f t) i = (Tbl.get? t i).map (f i) := by
  induction t with
  | nil => rfl
  | cons a rest ih =>
    obtain ⟨k, v⟩ := a
    have e : Tbl.mapVal f ((k, v) :: rest) = (k, f k v) :: Tbl.mapVal f rest := rfl
    rw [e, Tbl.get?, Tbl.get?]
    split
    · rename_i h; subst h; rfl
    · split
      · rfl
      · exact ih

/-! ### Registers -/

theorem State.reg_setReg_ne (s : State) (page off off' : Nat) (v : W32) (h : regKey s page off ≠ regKey s page off')
    (hk : regKey (s.setReg page off' v) page off = regKey s page off) : (s.setReg page off' v).reg page off = s.reg page off := by
  simp only [State.reg, hk]
  simp [State.setReg, Tbl.getD_set_ne _ _ _ _ _ h]

/-! ### Orders -/

/-- A write that does not reach its page changes nothing. -/
theorem orderWrite_dead (s : State) (src page off : Nat) (d : W32) (act : State → State) (h : canWrite s src page = false) :
    orderWrite s src page off d act = s := by simp [orderWrite, h]

/-- An order that reaches its register keeps the RW bits, and acts. -/
theorem orderWrite_live (s : State) (src page off typ inst n : Nat) (r : RegRow) (d : W32) (act : State → State)
    (h : canWrite s src page = true) (hk : pageKind page = some (typ, inst)) (hr : regAt typ off = some (r, n)) :
    orderWrite s src page off d act = act (s.setReg page off (d &&& BitVec.ofNat 32 r.rw)) := by
  simp [orderWrite, h, hk, hr]

theorem armedWrite_dead (s : State) (src page off : Nat) (d : W32) (act : State → State) (h : canWrite s src page = false) :
    armedWrite s src page off d act = s := by simp [armedWrite, h]

/-- Without an arm of its source an armed order is captured with KIND 1, and ignored. -/
theorem armedWrite_unarmed (s : State) (src page off : Nat) (d : W32) (act : State → State) (h : canWrite s src page = true)
    (ha : armed s src page = false) : armedWrite s src page off d act = capture s page off 1 true (d.zeroExtend 64) src := by
  simp [armedWrite, h, ha]

/-- An armed order consumes the arm, keeps its bits but GO, and acts. -/
theorem armedWrite_armed (s : State) (src page off typ inst n : Nat) (r : RegRow) (d : W32) (act : State → State)
    (h : canWrite s src page = true) (ha : armed s src page = true) (hk : pageKind page = some (typ, inst))
    (hr : regAt typ off = some (r, n)) :
    armedWrite s src page off d act = act ((disarm s src page).setReg page off (d &&& BitVec.ofNat 32 (r.rwa % 2 ^ 31))) := by
  simp [armedWrite, h, ha, hk, hr]

@[simp] theorem armed_disarm_self (s : State) (src page : Nat) : armed (disarm s src page) src page = false := by
  simp [armed, disarm]

theorem armed_disarm_ne (s : State) (src page src' page' : Nat) (h : (page', src') ≠ (page, src)) :
    armed (disarm s src page) src' page' = armed s src' page' := by
  have h' : page' = page → ¬src' = src := fun e1 e2 => h (by rw [e1, e2])
  simp [armed, disarm]
  intro _
  exact Classical.not_and_iff_not_or_not.mp (fun ⟨e1, e2⟩ => h' e1 e2)

/-- A capture keeps everything but its page; the first is kept and a later one only sets ERR_OVF. -/
theorem capture_frame (s : State) (page off kind : Nat) (w : Bool) (d : W64) (src : Nat) :
    ∃ x, capture s page off kind w d src = s.setPage page x ∧ x.intRaw = (s.page page).intRaw ∧ x.intEn = (s.page page).intEn := by
  cases h : (s.page page).capt with
  | none =>
    exact ⟨{ s.page page with
        capt := some { offset := off, kind := kind, write := w, data := d, source := src, stroke := s.stroke.number % 65536 } },
      by simp [capture, h], rfl, rfl⟩
  | some c => exact ⟨{ s.page page with errOvf := true }, by simp [capture, h], rfl, rfl⟩

/-! ### The end of a bring-up step -/

/-- Ending a step raises STEP_DONE or STEP_FAIL and changes the BRING page alone. -/
theorem bringEnd_frame (s : State) (code detail ms : Nat) :
    eventAt (bringEnd s code detail ms) pgBring (if code = 1 ∨ code = 2 ∨ code = 3 then 0 else 1) = true
      ∧ ∃ b, OnlyEvents { s with bring := b } (bringEnd s code detail ms) ∧ b.busy = false ∧ b.code = code
        ∧ b.elapsed = min ms (2 ^ 24 - 1)
        ∧ b.lastDone = (if code = 1 ∨ code = 2 ∨ code = 3 then s.bring.step else s.bring.lastDone)
        ∧ b.doneMap = (if code = 1 ∨ code = 2 ∨ code = 3 then s.bring.doneMap ||| 2 ^ s.bring.step else s.bring.doneMap) := by
  refine ⟨raise_event _ _ _ (by split_ifs <;> decide), _, raise_onlyEvents _ _ _, rfl, rfl, rfl, rfl, rfl⟩

/-! ### Host memory -/

theorem hostWrite_hostOk {s : State} (a : Nat) (bs : List Byte) (h : s.HostOk) : (hostWrite s a bs).HostOk :=
  Mem.wf_writeBytes a bs h

theorem OnlyEvents.hostOk {s t : State} (h : OnlyEvents s t) (hs : s.HostOk) : t.HostOk := by
  unfold State.HostOk at *; rw [h.1]; exact hs

theorem OnlyEvents.sec {s t : State} (h : OnlyEvents s t) : t.sec = s.sec := by rw [h.1]
theorem OnlyEvents.pending {s t : State} (h : OnlyEvents s t) : t.pending = s.pending := by rw [h.1]
theorem OnlyEvents.bring {s t : State} (h : OnlyEvents s t) : t.bring = s.bring := by rw [h.1]

end Sys2Proof.Machine
end

