-- ==== Sys2Proof/Machine/ReadPages.lean ====
section
/-! DEFINITION. What the read-only fields of the pages of a block show: DEV, BRING, CLOCK, REGION, HBM, THERM, CONV, SEC, WEIGHT, SERVE,
CAL, PART, CORE, FUNC, REQ, ADAPT and PLAN (R48, R49, R75, R125, R127, R151, R244, R245, R297, R298, R346, R347, R364, R365, R379, R391,
R392, R408, R409, R424, R426, R436). -/

namespace Sys2Proof.Machine

/-- Fields packed into a word: each with its lowest bit. -/
def packWord (fs : List (Nat × Nat)) : W32 := BitVec.ofNat 32 ((fs.map (fun (v, lo) => v * 2 ^ lo)).sum)

/-- The bits of a list of conditions, the first at bit 0. -/
def packBits (bs : List Bool) : W32 := packWord (bs.mapIdx (fun i b => (b.toNat, i)))

/-- A temperature in 12 bits: below 0 degrees C it reads 0 (R391). -/
def tempField (t : Int) : Nat := min 4095 t.toNat

/-- A signed field of 16 bits. -/
def signed16 (x : Int) : Nat := (BitVec.ofInt 16 x).toNat

/-- The RW bits of a register with read-only fields beside them. -/
def withRo (s : State) (page off : Nat) (fs : List (Nat × Nat)) : W32 := s.reg page off ||| packWord fs

/-! ### DEV (R424) -/

/-- `INT_STAT` of a page is not 0; a capture stands. -/
def intStatOn (s : State) (page : Nat) : Bool := (s.page page).intRaw &&& (s.page page).intEn != 0#32
def captOn (s : State) (page : Nat) : Bool := (s.page page).capt.isSome

/-- Device-global pages from index `i` on, or partitions, for which a condition holds. -/
def sumGlobal (f : Nat → Bool) (i : Nat) : W32 := packBits ((List.range 32).map (fun k => f (pgDev + i + k)))
def sumParts (f : Nat → Bool) : W32 :=
  packBits ((List.range numParts).map (fun p => f (pgFunc p) || f (pgReq p) || f (pgAdapt p) || f (pgPlan p)))

def readDev (s : State) (off : Nat) : Option W32 :=
  match off with
  | 0x040 => some 0x10961F6A#32
  | 0x044 => some (packWord [(s.sec.ttid % 256, 0), (s.sec.ttid % 65536, 8)])
  | 0x048 => some (packWord [(0x400, 0), (0x20, 11), (8, 17), (0x300, 21)])
  | 0x04C => some (sumGlobal (intStatOn s) 0)
  | 0x050 => some (sumGlobal (intStatOn s) 32)
  | 0x054 => some (sumParts (intStatOn s))
  | 0x058 => some (sumGlobal (captOn s) 0)
  | 0x05C => some (sumGlobal (captOn s) 32)
  | 0x060 => some (sumParts (captOn s))
  | _ => none

/-! ### BRING and CLOCK (R364, R365) -/

def readBring (s : State) (off : Nat) : Option W32 :=
  let b := s.bring
  let rec_ := s.field pgBring 0x060 0 5
  let f := fwupOf s b.fwupPart
  match off with
  | 0x044 => some (packWord [(b.step % 16, 0), (b.busy.toNat, 4), (b.code % 8, 8), (b.lastDone % 16, 11)])
  | 0x048 => some (packWord [(b.doneMap % 65536 / 2, 1)])
  | 0x04C => some (BitVec.ofNat 32 b.detail)
  | 0x050 => some (packWord [(sat 24 b.elapsed, 0)])
  | 0x058 => some (packWord [(b.hbmOk.toNat, 0), (b.meshOk.toNat, 1), (b.arrayOk.toNat, 2), (sat 16 b.bistAge, 16)])
  | 0x05C => some (packWord [(b.fwRounds % 16, 0), (sat 11 b.fwMissing, 4), (sat 8 b.fwFenced, 15), (b.slotB.toNat, 23)])
  | 0x064 => some (BitVec.ofNat 32 ((recordedEdition s rec_).getD 0))
  | 0x06C => some (packWord [(sat 16 (residentOf s rec_).length, 0), ((Tbl.get? b.boot rec_).isSome.toNat, 16),
      ((b.verified.testBit rec_).toNat, 17)])
  | 0x084 => some (packWord [(f.state % 8, 0), (b.fwupResult % 16, 3), (f.round % 16, 7), (f.pcore % 2048, 11), (b.fwupPart % 32, 22)])
  | 0x08C => some (BitVec.ofNat 32 (activeBank s (s.field pgBring 0x088 0 5)).version)
  | 0x090 => some (match (fwupOf s (s.field pgBring 0x088 0 5)).standby with
      | some x => BitVec.ofNat 32 x.version
      | none => 0#32)
  | _ => none

def readClock (s : State) (off : Nat) : Option W32 :=
  let d := s.field pgClock 0x048 0 5
  let x := Tbl.getD s.clock.dom d Domain.reset
  match off with
  | 0x040 => some (packWord [(s.clock.en % 2 ^ 25, 0)])
  | 0x044 => some (packWord [(s.clock.lock % 2 ^ 25, 0)])
  | 0x04C => some (if 25 ≤ d then 0#32 else packWord [(x.freqKhz % 2 ^ 21, 0), (sat 7 x.lockT, 21), (sat 4 x.losses, 28)])
  | _ => none

/-! ### REGION and HBM (R127, R426) -/

def readRegion (s : State) (r off : Nat) : Option W32 :=
  let x := s.region r
  let count (k : CoreKind) : Nat := (allPcores.filter (fun c => coreRegion c == r && (s.pcore c).kind == k)).length
  match off with
  | 0x040 => some (packWord [(x.div % 32, 0), (x.src % 8, 5)])
  | 0x044 => some (packWord [(x.xv.toNat, 0), (x.xe.toNat, 1), (x.xw.toNat, 2), ((neighbour r 0).isSome.toNat, 4),
      ((neighbour r 1).isSome.toNat, 5), ((neighbour r 2).isSome.toNat, 6)])
  | 0x048 => some (packWord [(sat 16 x.count, 0)])
  | 0x04C => some (packWord [(count .active + count .taking, 0), (count .spare, 8), (count .fenced, 16), (count .bad, 24)])
  | _ => none

def readHbm (s : State) (k off : Nat) : Option W32 :=
  let x := s.stack k
  match off with
  | 0x040 => some (packWord [(x.trained.toNat, 0), (x.restored.toNat, 1), (x.refresh2x.toNat, 2), (x.selfRefresh.toNat, 3),
      (x.chanUp % 64, 8), (x.rate % 256, 16)])
  | 0x044 => some (packWord [(sat 32 x.ce, 0)])
  | 0x048 => some (packWord [(sat 16 x.ue, 0), (sat 16 x.retired, 16)])
  | 0x04C => some (BitVec.ofNat 32 x.errAddr)
  | 0x054 => some (packWord [(x.errUe.toNat, 0), (x.errChan % 32, 1), (x.errSym % 4, 6), (x.errPart % 32, 8), (x.errReserve.toNat, 13)])
  | 0x05C => some (packWord [(sat 16 x.bwRd, 0), (sat 16 x.bwWr, 16)])
  | 0x060 => some (packWord [(tempField (s.sensor (288 + k)).reading, 0)])
  | _ => none

/-! ### THERM (R391, R392, R436) -/

/-- The rise of a sensor in 0.1 K, saturating; the manual gives no rounding of the 1/16 K (log entry 5). -/
def riseField (s : State) (v : Sensor) : Nat := match riseOf v with
  | none => 0
  | some d => sat 8 ((10 * d.toNat + (if Config.freeRoundUp s.freeCtr then 15 else 0)) / 16)

/-- HUBr_MAX and HUBr_DIV; a core sensor works once it has been sampled and has not failed. -/
def readHub (s : State) (r off : Nat) : Option W32 :=
  let h := s.hub r
  match off with
  | 0x0 => some (packWord [(tempField h.maxTemp, 0), (h.maxSensor % 512, 12),
      ((working s ((hubSensors r).filter (fun i => decide (i < 288) && (Tbl.get? s.therm.sensors i).isSome))).length, 21)])
  | 0x4 => some (packWord [(h.rateDiv % 32, 0), (h.thDiv % 32, 5), (effDiv s r % 32, 10), (h.holding.toNat, 15)])
  | _ => none

def readTherm (s : State) (off : Nat) : Option W32 :=
  let t := s.therm
  let n := s.field pgTherm 0x044 0 9
  let v := s.sensor n
  match off with
  | 0x040 => some (packWord [(tempField t.maxTemp, 0), (t.maxSensor % 512, 12), (t.fast.toNat, 21)])
  | 0x048 => some (if 308 ≤ n then 0#32 else packWord [(tempField v.reading, 0), (v.failed.toNat, 12), (riseField s v, 13)])
  | 0x05C => some (packWord [(t.capW % 4096, 0), (t.capDiv % 32, 12)])
  | 0x060 => some (packWord [(sat 12 t.avgW, 0), (sat 12 t.peakW, 12)])
  | 0x064 => some (packWord [(min 4095 t.shutTemp, 0), (t.shutSensor % 512, 12), (t.shutValid.toNat, 21)])
  | 0x068 => some (packWord [(sat 8 t.riseCnt, 0), (sat 8 t.thrCnt, 8), (sat 9 t.failedCnt, 16)])
  | 0x070 => some (packWord [(sat 16 t.flowRate, 0), (t.flowValid.toNat, 16)])
  | 0x078 => some (packWord [(t.leakExt.toNat, 0), (t.leakInt.toNat, 1), (t.leakLatched.toNat, 2)])
  | _ => if 0x100 ≤ off ∧ off < 0x180 then readHub s ((off - 0x100) / 16) (off % 16) else none

/-! ### CONV (R408, R409) -/

/-- REF_SUSPECT marks precision results (R406). -/
def readChan (s : State) (src n off : Nat) : Option W32 :=
  let c := s.chan n
  match off with
  | 0x4 => some (packWord [((c.code % 2 ^ 24).toNat, 0), (c.valid.toNat, 24), (c.limLo.toNat, 25), (c.limHi.toNat, 26),
      (c.calHold.toNat, 27), (c.sysCal.toNat, 28), ((decide (n < 16) && s.conv.refSuspect).toNat, 29)])
  | 0x8 => some (Tbl.getD s.latches (64 * (4096 * pgConv + 0x108 + 16 * n) + src) 0#32)
  | _ => none

def readConv (s : State) (src off : Nat) : Option W32 :=
  let c := s.conv
  match off with
  | 0x040 => some (packWord [(c.en.toNat, 0), (c.ready.toNat, 1), (sat 16 c.early, 16)])
  | 0x050 => some (packWord [(min 4095 c.coolIn, 0), (min 4095 c.coolOut, 12), (c.inValid.toNat, 24), (c.outValid.toNat, 25)])
  | 0x05C => some (packWord [(c.cal.busy.toNat, 0), (c.cal.zero.isSome.toNat, 1), (c.cal.pass.toNat, 2), (c.cal.chan % 32, 3),
      (c.cal.why % 8, 8)])
  | 0x060 => some (withRo s pgConv 0x060 [(sat 8 c.selfFails, 16)])
  | 0x064 => some (withRo s pgConv 0x064 [(sat 14 c.droop, 18)])
  | _ => if 0x100 ≤ off ∧ off < 0x240 then readChan s src ((off - 0x100) / 16) (off % 16) else none

/-! ### SEC (R379) -/

def readSec (s : State) (off : Nat) : Option W32 :=
  let x := s.sec
  match off with
  | 0x040 => some (packWord [(x.lcState % 4, 0), (x.unlocked.toNat, 2), (x.eraseDone.toNat, 3), (x.eraseFail.toNat, 4),
      (x.unlockCtr % 65536, 16)])
  | 0x044 => some (packWord [(x.fwSvn % 64, 0), (x.keySvn % 64, 6), (x.revoked % 16, 12)])
  | 0x048 => some (x.serial.extractLsb' 0 32)
  | 0x068 => some (packWord [((pfBusy s).toNat, 0), (x.result % 16, 1), (x.lastOp % 16, 5), ((mcBusy s).toNat, 9)])
  | 0x06C => some (packWord [(x.preferB.toNat, 0), (x.bootedB.toNat, 1), (x.aValid.toNat, 2), (x.bValid.toNat, 3)])
  | 0x070 => some (packWord [(x.unlockLeft % 1024, 0)])
  | _ => none

/-! ### WEIGHT and CAL (R297, R298) -/

def resStateCode : ResState → Nat
  | .empty => 0
  | .programming => 1
  | .resident => 2
  | .failed => 3

/-- Whether the record of an array matches the CURRENT of its partition. -/
def inCurrent (s : State) (k : Nat) : Bool := match (s.part (s.array k).resPart).curImage with
  | some im => (s.array k).resState == .resident && (s.array k).recOk && (s.array k).edition == im.edition
      && placedTile s im k == some (s.array k).tile
  | none => false

/-- The array with the highest write count; of several the one with the lowest core, then array (DESIGN CHOICE, log entry 106). -/
def mostWorn (s : State) : Nat × Nat :=
  s.arrays.foldl (fun m ka =>
    if m.1 < ka.2.writeCnt ∨ (m.1 = ka.2.writeCnt ∧ m.1 ≠ 0 ∧ ka.1 < m.2) then (ka.2.writeCnt, ka.1) else m) (0, 0)

def rollPending (x : Part) : Bool := match x.change with
  | .rollPending _ => true
  | .none | .offline | .rolling => false

/-- `ARR_STATE` to `ARR_ED` of the array that `ARR_SEL` names. The record of an array that was never written has no check word
(DEDUCED, log entry 106). -/
def readArr (s : State) (off : Nat) : W32 :=
  let c := s.field pgWeight 0x080 0 11
  let k := 32 * c + s.field pgWeight 0x080 11 5
  let a := s.array k
  if numPcores ≤ c then 0#32
  else match off with
    | 0x084 => packWord [(resStateCode a.resState, 0), ((a.recOk && a.writeCnt != 0).toNat, 2), (a.due.toNat, 3), (a.shadowed.toNat, 4), (a.resPart % 32, 5),
        ((inCurrent s k).toNat, 10)]
    | 0x088 => if a.resState = .empty then 0xFFFFFFFF#32 else BitVec.ofNat 32 a.tile
    | 0x08C => packWord [(sat 16 a.writeCnt, 0), (sat 16 (spreadOf a.devs), 16)]
    | _ => BitVec.ofNat 32 a.edition

def readWeight (s : State) (off : Nat) : Option W32 :=
  let w := s.weight
  let x := s.part (s.field pgWeight 0x068 0 5)
  match off with
  | 0x05C => some (packWord [(w.busy.isSome.toNat, 0), (w.result % 16, 1), (w.part % 32, 5), (w.lastOp % 16, 10),
      ((s.parts.any (fun (_, y) => rollPending y)).toNat, 14), ((s.parts.any (fun (p, _) => rollWaits s p)).toNat, 15)])
  | 0x060 => some (packWord [(sat 16 (w.queue.filter (fun q => !repairWork q)).length, 0), (bulkUsed s, 16),
      (slotsUsed s (fun q => q.repair), 21)])
  | 0x06C => some (BitVec.ofNat 32 x.edition)
  | 0x074 => some (match x.nextImage with
      | some im => BitVec.ofNat 32 im.edition
      | none => 0#32)
  | 0x07C => some (match x.curImage with
      | some im => packWord [(sat 16 im.ntile, 0), ((partChanging x).toNat, 16), ((!im.lost.isEmpty).toNat, 17)]
      | none => packWord [((partChanging x).toNat, 16)])
  | 0x084 => some (readArr s off)
  | 0x088 => some (readArr s off)
  | 0x08C => some (readArr s off)
  | 0x090 => some (readArr s off)
  | 0x098 => some (packWord [((mostWorn s).1, 0), ((mostWorn s).2 / 32, 16), ((mostWorn s).2 % 32, 27)])
  | 0x09C => some (packWord [(sat 16 w.refreshDone, 0), (sat 16 (s.arrays.filter (fun (_, a) => a.due)).length, 16)])
  | _ => none

def readCal (s : State) (off : Nat) : Option W32 :=
  let c := s.cal
  let p := s.field pgCal 0x060 0 5
  let t := ((planProjs (s.part p)).findIdx? (fun x => x.id == (s.reg pgCal 0x064).toNat)).map (fun k => s.trim p k)
  match off with
  | 0x048 => some (packWord [(c.busy.toNat, 0), (sat 16 c.left.length, 16)])
  | 0x04C => some (packWord [(sat 16 c.passed, 0), (sat 16 c.failed, 16)])
  | 0x050 => some (packWord [(c.lastPcore % 2048, 0), (c.lastArray % 32, 11), (c.lastPass.toNat, 16), (c.lastOutRange.toNat, 17),
      (c.lastWhy % 16, 18)])
  | 0x068 => some (match t with
      | some t => packWord [(t.en.toNat, 0), (t.rankMax % 32, 1)]
      | none => 0#32)
  | 0x06C => some (match t with
      | some t => packWord [(t.version.rank % 32, 0), (t.active.toNat, 5), (t.last % 4, 6), (sat 8 t.accepted, 8), (sat 8 t.rejected, 16)]
      | none => 0#32)
  | _ => none

/-! ### SERVE and REQ (R244, R245) -/

def readServe (s : State) (off : Nat) : Option W32 :=
  let v := s.serve
  match off with
  | 0x040 => some (packWord [(freeSlots s, 0)])
  | 0x044 => some (packWord [(freeHandles s, 0)])
  | 0x048 => some (packWord [(totalPages s % 2 ^ 22, 0)])
  | 0x04C => some (packWord [(allFreePages s % 2 ^ 22, 0)])
  | 0x050 => some (BitVec.ofNat 32 v.intakes)
  | 0x054 => some (packWord [(sat 16 v.cancels, 0), (sat 16 v.late, 16)])
  | 0x058 => some (packWord [(min 2000 v.cancelLat, 0)])
  | _ => none

def slotStateCode : SlotState → Nat
  | .free => 0
  | .prefill => 1
  | .decode => 2
  | .digesting => 3
  | .pausedDigest => 4
  | .parking => 5
  | .parked => 6
  | .resuming => 7
  | .building => 8

def readReq (s : State) (p off : Nat) : Option W32 :=
  let x := s.part p
  let n := s.field (pgReq p) 0x0C0 0 16
  let v := s.slot n
  match off with
  | 0x05C => some (BitVec.ofNat 32 x.tail)
  | 0x070 => some (BitVec.ofNat 32 x.cqProd)
  | 0x0A4 => some (packWord [(x.cfg.sbase % 65536, 0)])
  | 0x0A8 => some (packWord [(x.cfg.scount, 0)])
  | 0x0AC => some (packWord [((slotsOf s p).length, 0)])
  | 0x0B0 => some (packWord [(freePages s p % 2 ^ 22, 0)])
  | 0x0B4 => some (packWord [((handlesOf s p).length, 0), (x.cfg.quota % 2 ^ 15, 16)])
  | 0x0B8 => some (packWord [(sat 17 x.waitStalled, 0), (sat 15 x.waitUnlisted, 17)])
  | 0x0BC => some (packWord [(sat 16 x.badCons, 0), (sat 16 x.badOrder, 16)])
  | 0x0C4 => some (if !ownSlot x n then 0#32
      else packWord [(slotStateCode v.state, 0), (v.gen % 65536, 4), (v.priority % 8, 20), (v.stalled.toNat, 23), (v.cancel.isSome.toNat, 24)])
  | 0x0C8 => some (if !ownSlot x n then 0#32 else BitVec.ofNat 32 v.nextSeq)
  | _ => none

/-! ### FUNC and PART (R346, R347) -/

/-- Logical cores of a partition that are HOSTED (R121). -/
def hostedOf (s : State) (p : Nat) : Nat :=
  ((List.range (s.part p).cfg.lcount).filter (fun i => (s.remapOf ((s.part p).cfg.lbase + i)).mode == .hosted)).length

def readFunc (s : State) (p off : Nat) : Option W32 :=
  let x := s.part p
  match off with
  | 0x050 => some x.cfg.share0
  | 0x054 => some (x.cfg.share1 &&& 0xFFFF#32)
  | 0x058 => some (packWord [(x.rstLast % 8, 0), (sat 17 x.rstTerms, 3), (x.rstUnwritten.toNat, 20), (x.intakeHold.toNat, 21)])
  | 0x05C => some (packWord [(x.cfg.lcount, 0), (hostedOf s p, 11)])
  | _ => none

def partStateCode : PartState → Nat
  | .none => 0
  | .creating => 1
  | .ready => 2
  | .resetting => 3
  | .destroying => 4

/-- Configuration fields of a partition that has been created. -/
def readCfg (c : PartCfg) (off : Nat) : Option W32 :=
  match off with
  | 0x044 => some (packWord [(c.lbase, 0), (c.lcount, 10)])
  | 0x048 => some (packWord [(c.sbase, 0), (c.scount - 1, 16)])
  | 0x04C => some (packWord [(c.quota, 0)])
  | 0x050 => some (packWord [(c.pages, 0)])
  | 0x054 => some (packWord [(c.scratch, 0)])
  | 0x058 => some (packWord [(c.adapt, 0)])
  | 0x05C => some (packWord [(c.image, 0)])
  | 0x060 => some c.share0
  | 0x064 => some (c.share1 &&& 0xFFFF#32)
  | _ => none

/-- STATE, HBM_FREE and CORES_FREE as of the last boundary; while strokes do not run, and orders take effect at once (R332), as they
stand (DESIGN CHOICE, log entry 106). -/
def partStateShown (s : State) (p : Nat) : PartState :=
  if strokesRun s then Tbl.getD s.shown.parts p .none else (s.part p).state

def readPart (s : State) (off : Nat) : Option W32 :=
  let p := s.field pgPart 0x040 0 5
  let x := s.part p
  match off with
  | 0x070 => some (packWord [((x.order.isSome || x.rst.isSome).toNat, 0), (x.result % 16, 1), (partStateCode (partStateShown s p), 5),
      ((vfOn s p && x.bme).toNat, 8)])
  | 0x074 => some (packWord [((if strokesRun s then s.shown.hbmFree else hbmFreeMib s) % 2 ^ 20, 0)])
  | 0x078 => some (packWord [((if strokesRun s then s.shown.coresFree else coresFree s), 0)])
  | _ => if x.state = .none ∨ x.state = .creating then none else readCfg x.cfg off

/-! ### CORE (R48, R49, R125) -/

/-- A value for each array of a core. -/
def perArray (s : State) (c : Nat) (f : Nat → ArrayUnit → Bool) : W32 :=
  packBits ((List.range 32).map (fun n => f (32 * c + n) (s.array (32 * c + n))))

/-- MODE of an array: 0 idle, 1 narrow, 2 broad pass, 3 threshold. R49 names no code for the other evaluations, which are driven as narrow
ones are (DESIGN CHOICE, log entry 106). -/
def evalMode (a : ArrayUnit) : Nat := match a.eval with
  | none => 0
  | some e => match e.kind with
    | .narrow | .refCodes | .proof | .calib | .part => 1
    | .broad => 2
    | .threshold => 3

def readArrayReg (s : State) (k off : Nat) : Option W32 :=
  let a := s.array k
  let hi := decide ((a.driftTh : Int) ≤ |arrayDrift s k|)
  match off with
  | 0x00 => some (packWord [(a.range % 16, 0), (a.trackHold.toNat, 4)])
  | 0x04 => some (packWord [(a.eval.isSome.toNat, 0), (evalMode a, 1), (a.fenced.toNat, 3), (a.trackValid.toNat, 4), (a.trackLim.toNat, 5),
      (hi.toNat, 6)])
  | 0x08 => some (packWord [(a.gain % 65536, 0)])
  | 0x0C => some (packWord [(signed16 a.offs, 0)])
  | 0x10 => some (packWord [(signed16 (arrayDrift s k), 0), (a.driftTh % 65536, 16)])
  | 0x14 => some (packWord [(signed16 a.lastRes, 0), (a.lastFail.toNat, 16), (a.lastUnchk.toNat, 17), (a.lastWin.toNat, 18),
      (a.chkCol.toNat, 19)])
  | 0x18 => some (BitVec.ofNat 32 a.evCnt)
  | 0x1C => some (packWord [(a.tTrk % 4096, 0)])
  | _ => none

/-- LCORE and PART of CSTAT: those of an ACTIVE or TAKING core. -/
def cstatWord (s : State) (c : Nat) : W32 :=
  let x := s.pcore c
  let hosts := s.remap.any (fun (_, r) => r.mode == .hosted && r.host == c)
  let code := match x.kind with
    | .bad => 0
    | .spare => 1
    | .active => 2
    | .fenced => 3
    | .taking => 4
  let held := code = 2 ∨ code = 4
  packWord [(code, 0), (if held then x.lcore % 1024 else 0, 3), (if held then x.part % 32 else 0, 13), (hosts.toNat, 18), (x.rtrUp.toNat, 19)]

def readCore (s : State) (c off : Nat) : Option W32 :=
  let x := s.pcore c
  match off with
  | 0x040 => some (cstatWord s c)
  | 0x044 => some (packWord [(sat 16 x.sramCe, 0), (sat 16 x.sramUe, 16)])
  | 0x048 => some (packWord [(x.sramLast % 2 ^ 21, 0), (x.sramLastUe.toNat, 21)])
  | 0x04C => some (packWord [(sat 16 x.resFail, 0)])
  | 0x050 => some (packWord [(x.portUp % 32, 0), (x.rtrFault.toNat, 5)])
  | 0x054 => some (packWord [(sat 16 x.retry, 0), (sat 16 x.discard, 16)])
  | 0x058 => some (packWord [(sat 7 x.slotHw, 0), (sat 8 x.ligTimeout, 16), (sat 8 x.ligChkFail, 24)])
  | 0x388 => some (perArray s c (fun _ a => a.eval.isSome))
  | 0x38C => some (perArray s c (fun _ a => a.fenced))
  | 0x390 => some (packWord [(sat 16 x.chgFail, 0), (sat 16 x.winFail, 16)])
  | 0x394 => some (packWord [(sat 32 x.unchk, 0)])
  | 0x398 => some (perArray s c (fun k _ => trimOk s k))
  | 0x39C => some (packWord [(x.tCal % 4096, 0)])
  | _ => if 0x400 ≤ off ∧ off < 0x800 then readArrayReg s (32 * c + (off - 0x400) / 32) (off % 32) else none

/-! ### ADAPT and PLAN (R75, R151) -/

def readAdapt (s : State) (p off : Nat) : Option W32 :=
  let x := s.part p
  match off with
  | 0x04C => some (packWord [(x.adBusy.isSome.toNat, 0), (x.adResult % 16, 4), (x.adLast % 1024, 8)])
  | 0x050 => some (packWord [(((List.range 1024).filter (fun n => (adapterAt x n).isSome)).length, 0)])
  | 0x054 => some (packWord [(poolFree x, 0)])
  | _ => none

def readPlan (s : State) (p off : Nat) : Option W32 :=
  let x := s.part p
  let t := x.pstat
  match off with
  | 0x05C => some (packWord [((decide (t.busy ≠ 0)).toNat, 0), (x.plan.isSome.toNat, 1), (t.ttTol.toNat, 2), (t.budgetTol.toNat, 3),
      (t.result % 16, 4), (t.ncore % 2048, 8), (t.owned % 2048, 19)])
  | 0x060 => some (packWord [(t.entryIdx % 64, 0)])
  | 0x064 => some (packWord [(t.cp % 2 ^ 25, 0)])
  | 0x068 => some (packWord [(t.limit % 2 ^ 25, 0)])
  | 0x06C => some t.fault
  | 0x070 => some (t.faultAddr.extractLsb' 0 32)
  | 0x078 => some t.ttdiff
  | _ => none

end Sys2Proof.Machine
end

