-- ==== Sys2Proof/Machine/RegisterRead.lean ====
section
/-! DEFINITION. What reads return: page headers (R410, R411), the STROKE, MESH, LINK and INTEG pages (R99, R100, R126, R273, R274, R326,
R327), those of ReadPages, and the RW registers as they stand (R415). No command of the table reads without a side effect; these functions say what a read
of the other registers shows. -/

namespace Sys2Proof.Machine

/-! ### Headers (R410, R411) -/

/-- Owning partition of a page: its own number on a partition page; on a core page the partition of a core that is ACTIVE or TAKING; 0xFF
on every other page. -/
def pageOwner (s : State) (page : Nat) : Nat :=
  match pageKind page with
  | some (17, c) => (match (s.pcore c).kind with
    | .active => (s.pcore c).part
    | .taking => (s.pcore c).part
    | .bad => 0xFF
    | .spare => 0xFF
    | .fenced => 0xFF)
  | _ => (pagePart page).getD 0xFF

/-- `STAT`: a capture, an overflow, an arm of the reading source. -/
def pageStat (s : State) (src page : Nat) : W32 :=
  let x := s.page page
  packWord [(x.capt.isSome.toNat, 0), (x.errOvf.toNat, 1), ((armed s src page).toNat, 2)]

/-- The capture as `ERR_CAPT0` to `ERR_CAPT3` show it. -/
def captWord (c : Option Capt) (n : Nat) : W32 :=
  match c with
  | none => 0#32
  | some c => match n with
    | 0 => packWord [(c.offset % 4096, 0), (c.kind % 8, 12), (c.write.toNat, 15)]
    | 1 => c.data.extractLsb' 0 32
    | 2 => c.data.extractLsb' 32 32
    | _ => packWord [(c.source % 64, 0), (c.stroke % 65536, 16)]

/-- A word of a page header. -/
def readHeader (s : State) (src page typ inst off : Nat) : W32 :=
  let x := s.page page
  match off with
  | 0x000 => packWord [(typ, 0), (inst, 8)]
  | 0x004 => 0x00000100#32
  | 0x008 => packWord [(x.irqEn.toNat, 0)]
  | 0x00C => pageStat s src page
  | 0x010 => x.intRaw
  | 0x014 => x.intEn
  | 0x01C => x.intRaw &&& x.intEn
  | 0x020 => captWord x.capt 0
  | 0x024 => captWord x.capt 1
  | 0x028 => captWord x.capt 2
  | 0x02C => captWord x.capt 3
  | 0x030 => packWord [(pageOwner s page, 0)]
  | _ => 0#32

/-! ### STROKE (R99, R100) -/

def strokeStateCode : StrokeState → Nat
  | .stopped => 0
  | .waitEpoch => 1
  | .locked => 2
  | .holdover => 3
  | .freeRun => 4

/-- A signed count, saturating at 32,767 either way, in 16 bits. -/
def slack16 (x : Int) : Nat := (BitVec.ofInt 16 (max (-32767) (min 32767 x))).toNat

/-- The registers of partition `p` on the STROKE page. -/
def readStrokeJob (s : State) (p off : Nat) : Option W32 :=
  match off, s.job p with
  | 0x00, j => some (((s.reg pgStroke (0x100 + 0x20 * p)) &&& ~~~(0x30000#32)) ||| packWord (match j with
      | some j => [(j.partialPol.toNat, 16), (j.auto.toNat, 17)]
      | none => []))
  | 0x04, some j => some (packWord [(j.stepNo % 2 ^ 32, 0)])
  | 0x0C, some j => some (packWord [(j.lastSpan, 0), (sat 8 j.strRun, 4), (sat 20 j.strCnt, 12)])
  | 0x10, some j => some (packWord [(sat 16 j.lastBroadReq, 0), (sat 16 j.lastBroadRefused, 16)])
  | 0x14, some j => some (packWord [(slack16 j.minSlack, 0), (j.worstLcore, 16)])
  | 0x18, some j => some (packWord [(j.halted.toNat, 0), (if j.halted then j.haltCause else 0, 1)])
  | 0x04, none => some 0#32
  | 0x0C, none => some 0#32
  | 0x10, none => some 0#32
  | 0x14, none => some 0#32
  | 0x18, none => some 0#32
  | _, _ => none

/-- RO registers of the STROKE page. -/
def readStroke (s : State) (off : Nat) : Option W32 :=
  let k := s.stroke
  match off with
  | 0x050 => some (packWord [(k.periodAct, 0), (k.pend.isSome.toNat, 22)])
  | 0x054 => some k.layoutAct
  | 0x058 => some (BitVec.ofNat 32 k.number)
  | 0x068 => some (packWord [(strokeStateCode k.state, 0), (k.refOk.toNat, 3), (k.syncOk.toNat, 4),
      (min 1000 (k.holdTicks / 156250), 5), (sat 16 k.slips, 16)])
  | 0x06C => some (packWord [(min 1000 (s.field pgStroke 0x06C 0 11), 0)])
  | _ => if 0x100 ≤ off ∧ off < 0x500 then readStrokeJob s ((off - 0x100) / 0x20) (off % 0x20) else none

/-! ### MESH (R126) -/

def remapCode : RemapMode → Nat
  | .unused => 0
  | .arrays => 1
  | .fairCopy => 2
  | .hosted => 3

def readMesh (s : State) (off : Nat) : Option W32 :=
  let m := s.mesh
  match off with
  | 0x040 => some (packWord [((coresIn s .spare).length, 0), (m.spareTotal, 8), (m.good, 16)])
  | 0x048 =>
    let r := s.remapOf (s.field pgMesh 0x044 0 10)
    some (packWord [(r.pcore, 0), (remapCode r.mode, 11), (if r.mode = .hosted then r.host else r.pcore, 13), (r.part, 24)])
  | 0x04C => some (packWord [(m.rtVersion % 65536, 0), (sat 16 m.rtUpdates, 16)])
  | 0x058 => some (packWord [(m.fenceBusy.toNat, 0), (m.fenceResult, 1), (m.fenceSpare, 4)])
  | 0x05C => some (packWord [(m.faultPcore, 0), (m.faultPort, 11), (m.faultKind, 14)])
  | 0x060 => some (packWord [(m.linksDown % 4096, 0)])
  | _ => none

/-! ### LINK (R326, R327) -/

def portStateCode : PortState → Nat
  | .down => 0
  | .training => 1
  | .up => 2
  | .disabled => 3
  | .wiringErr => 4

def pairStateCode : PairState → Nat
  | .unpaired => 0
  | .sync => 1
  | .paired => 2
  | .solo => 3
  | .isolated => 4
  | .suspended => 5
  | .lost => 6

/-- `LINK.DIRS`: directions whose ports are all DOWN, and those of which some are. -/
def dirsWord (s : State) : W32 :=
  let down (d : Nat) : List Nat := (portsOf s d).filter (fun n => (s.port n).state == .down)
  packWord ((List.range 6).flatMap (fun d =>
    let all := !(portsOf s d).isEmpty && (down d).length == (portsOf s d).length
    [(all.toNat, d), ((!all && !(down d).isEmpty).toNat, d + 6)]))

/-- RO registers of page LINKn; PAIR_STAT and MIRROR as of the last boundary. -/
def readLink (s : State) (n off : Nat) : Option W32 :=
  let x := s.port n
  let k := s.link
  let r := Tbl.getD s.shown.pairs (jobSel s) PairShown.reset
  match off with
  | 0x040 => some (packWord [(portStateCode x.state, 0), (x.dir % 8, 3), (x.peerPort % 16, 6), (x.los.toNat, 10)])
  | 0x044 => some (packWord [(x.peer % 8192, 0)])
  | 0x04C => some (packWord [(sat 32 x.fec, 0)])
  | 0x050 => some (packWord [(sat 16 x.crcFail, 0), (sat 16 x.replay, 16)])
  | 0x054 => some (packWord [(sat 16 x.downs, 0), (sat 16 x.trains, 16)])
  | 0x100 => some (packWord [(k.coord, 0), (k.racks, 16), (k.valid.toNat, 23), (k.profile, 24)])
  | 0x104 => some (packWord [(k.buddy, 0), (k.buddyValid.toNat, 15)])
  | 0x108 => some (packWord [(k.racksNext, 0), (k.growArm.toNat, 31)])
  | 0x10C => some (BitVec.ofNat 32 k.growAt)
  | 0x114 => some (packWord [(k.rtVersion % 65536, 0), (sat 16 k.rtUpdates, 16)])
  | 0x118 => some (dirsWord s)
  | 0x11C => some (packWord [(sat 16 k.nojob, 0), (sat 16 k.badcrc, 16)])
  | 0x124 => some (s.jobReg (jobSel s) 0x124)
  | 0x128 => some (s.jobReg (jobSel s) 0x128)
  | 0x12C => some (s.jobReg (jobSel s) 0x12C)
  | 0x130 => some (packWord [(pairStateCode r.state, 0), (r.jobPaired.toNat, 3), (sat 12 r.hbAge, 4), (sat 16 r.adopted, 16)])
  | 0x134 => some (packWord [((r.pages + 3) / 4 % 2 ^ 18, 0)])
  | _ => none

/-! ### INTEG (R273, R274) -/

/-- Checkers in use, each with one sample in flight (R261). -/
def busyCheckers (s : State) : Nat := s.integ.checks.length

/-- RO registers of the INTEG page; counters as of the last boundary. -/
def readInteg (s : State) (off : Nat) : Option W32 :=
  let g := s.integ
  let h := g.shown
  match off with
  | 0x04C => some (match g.proof with
      | some r => packWord [(r.pcore, 0), (r.left.length, 11), (r.subst.isSome.toNat, 17)]
      | none => 0#32)
  | 0x050 => some (packWord [(sat 16 h.proofRounds, 0), (sat 8 h.proofFails, 16), (sat 8 h.proofLate, 24)])
  | 0x054 =>
    let free := ((s.parts.flatMap (fun (p, x) => if x.plan.isSome then idleCores s p else [])) ++ coresIn s .spare).filter (fun c =>
      !g.checks.any (fun x => x.checker == c) && !g.provers.any (fun y => y.1 == c))
    some (packWord [(sat 8 free.length, 0), (sat 8 (busyCheckers s), 8), (sat 8 h.sampleLate, 16), (sat 8 h.sampleSkip, 24)])
  | 0x058 => some (packWord [(sat 16 h.suspects, 0), (sat 16 h.transients, 16)])
  | 0x05C => some (packWord [(sat 16 h.permanents, 0), (sat 16 h.frozen, 16)])
  | 0x060 => some g.lastSusp
  | 0x064 => some (BitVec.ofNat 32 g.lastStroke)
  | 0x06C => some (packWord ((List.range 32).map (fun p => (((s.job p).any (fun j => j.hold.isSome)).toNat, p))))
  | 0x07C => some (BitVec.ofNat 32 g.taintProd)
  | 0x088 =>
    let p := s.field pgInteg 0x084 0 5
    some (packWord [((s.slots.filter (fun (_, x) => x.part == p && x.state != .free && x.frozen)).length, 0)])
  | 0x08C => some (packWord [(sat 16 h.pagesRetired, 0)])
  | 0x090 => some (packWord [(g.lastCause % 256, 0)])
  | _ => none

/-! ### Reads -/

/-- The value latched for a source in a _HI register of an RO pair (R417). -/
def latched (s : State) (src page off : Nat) : Option W32 := Tbl.get? s.latches (64 * (4096 * latchPage page off + off) + src)

/-- Whether an offset is the _HI register of an RO pair. -/
def isHigh (s : State) (typ inst off : Nat) : Bool := decide (4 ≤ off) && (highHalf s typ inst (off - 4)).isSome

/-- Before step 4 has locked a page's domain, its `BLK_ID` and `BLK_VER` read their values all the same (R422). -/
def idWord (s : State) (src page off : Nat) : W32 :=
  if src = 0 ∧ s.pins.perstN = true ∧ s.pins.pwrGood = true ∧ s.pins.pcieUp = true ∧ s.shut = false ∧ off < 8 then
    match pageKind page with
    | some (typ, inst) => if typ < 18 then readHeader s src page typ inst off else 0#32
    | none => 0#32
  else 0#32

/-- The read-only fields of a page, by block type. -/
def readRo (s : State) (src typ inst off : Nat) : Option W32 :=
  match typ with
  | 1 => readDev s off
  | 2 => readBring s off
  | 3 => readClock s off
  | 4 => readStroke s off
  | 5 => readMesh s off
  | 6 => readRegion s inst off
  | 7 => readHbm s inst off
  | 8 => readLink s inst off
  | 9 => readTherm s off
  | 10 => readConv s src off
  | 11 => readSec s off
  | 12 => readInteg s off
  | 13 => readWeight s off
  | 14 => readServe s off
  | 15 => readCal s off
  | 16 => readPart s off
  | 17 => readCore s inst off
  | 18 => readFunc s inst off
  | 19 => readReq s inst off
  | 20 => readAdapt s inst off
  | 21 => readPlan s inst off
  | _ => none

/-- A register of a page from offset 0x040 on: its read-only fields, or the RW and RWA bits as last accepted (R415). -/
def readBlock (s : State) (src page typ inst off : Nat) : W32 :=
  match readRo s src typ inst off with
  | some w => w
  | none => match regAt typ off with
    | none => 0#32
    | some (r, _) => if r.wo then 0#32
        else ((s.reg page off) &&& BitVec.ofNat 32 (r.rw ||| r.rwa % 2 ^ 31))
          ||| (if sealedPart s then sealedBits typ r.off else 0#32)

/-- A 4-byte read by a source (R415, R417, R422): 0 where the page or the register is not there or not for the source. -/
def readReg (s : State) (src page off : Nat) : W32 :=
  if !canRead s src page then idWord s src page off
  else
    match pageKind page with
    | none => 0#32
    | some (typ, inst) =>
      if off < 0x040 then readHeader s src page typ inst off
      else if isHigh s typ inst off then (latched s src page off).getD 0#32
      else readBlock s src page typ inst off

end Sys2Proof.Machine
end

