-- ==== Sys2Proof/Tests/Slice0.lean ====
section
/-! SUPPORT. Tests: ill-formed commands that the check refuses, words of the manual, one step on small states, and for every statement with
hypotheses a state that meets them. -/

open Sys2Proof Sys2Proof.Machine

namespace Sys2Proof.Tests

set_option Elab.async false

/-! ### Small states -/

/-- An issue on logical core 0 with the fields of a word (dest, src1, src2, flags, imm, guard), whose checks find nothing. -/
def mkIssue (dest src1 src2 flags imm guard : Nat) : Issue :=
  { lcore := 0, cycle := 0, hw := .ok, hwOther := .ok, sameDigest := none,
    f := { dest := BitVec.ofNat 6 dest, src1 := BitVec.ofNat 6 src1, src2 := BitVec.ofNat 6 src2,
           guard := BitVec.ofNat 3 guard, flags := BitVec.ofNat 3 flags, imm := BitVec.ofNat 32 imm } }

/-- Scribe 0 runs instruction 2 of 10 of its role; g6, g7, g8, g9 and p1 hold 6, 7, 65, all ones and 1. -/
def runningScribe : Scribe :=
  { Scribe.reset with
    mode := .running, nInstr := 10, pc := 2, special := [100#32, 101#32, 2#32, 3#32, 4#32, 5#32, 6#32],
    arch := { Arch.reset with
      g := [(6, 6#64), (7, 7#64), (8, 65#64), (9, 0xFFFFFFFFFFFFFFFF#64)], a := [(1, 64#64), (2, 128#64)], p := [(1, true)] } }

def oneScribe : State := State.reset.setScribe 0 runningScribe
def fourLoops : State :=
  State.reset.setScribe 0 { runningScribe with loops := List.replicate 4 { start := 2, last := 8, left := 2 } }
def twoLoopEnds : State :=
  State.reset.setScribe 0
    { runningScribe with pc := 5, loops := [{ start := 3, last := 5, left := 1 }, { start := 3, last := 5, left := 1 }] }

/-- The state a command answers, if it goes on. -/
def nextOf (o : Host.Outcome State Fault Refusal) : Option State :=
  match o with
  | .next t => some t
  | .fault _ => none
  | .refused _ => none

def scribeG (o : Host.Outcome State Fault Refusal) (n : Nat) : Option W64 :=
  (nextOf o).map (fun t => (t.scribe 0).arch.g_ 0 n)
def scribeP (o : Host.Outcome State Fault Refusal) (n : Nat) : Option Bool :=
  (nextOf o).map (fun t => (t.scribe 0).arch.p_ 0 n)
def scribePc (o : Host.Outcome State Fault Refusal) : Option Nat := (nextOf o).map (fun t => (t.scribe 0).pc)

theorem test_li_sign_extends :
    scribeG (exec (.li (mkIssue 5 0 0 0 0x80000000 0)) oneScribe) 5 = some 0xFFFFFFFF80000000#64 := by decide
theorem test_li_high_keeps_low :
    scribeG (exec (.li (mkIssue 6 0 0 1 0x12345678 0)) oneScribe) 6 = some 0x1234567800000006#64 := by decide
theorem test_write_to_g0_is_discarded :
    scribeG (exec (.li (mkIssue 0 0 0 0 7 0)) oneScribe) 0 = some 0#64 := by decide
theorem test_addi_wraps :
    scribeG (exec (.addi (mkIssue 4 6 0 0 0xFFFFFFF9 0)) oneScribe) 4 = some 0xFFFFFFFFFFFFFFFF#64 := by decide
theorem test_movsr_selects :
    scribeG (exec (.movsr (mkIssue 3 0 0 0 1 0)) oneScribe) 3 = some 101#64 := by decide
theorem test_sel_takes_second :
    scribeG (exec (.sel (mkIssue 3 6 7 0 2 0)) oneScribe) 3 = some 7#64 := by decide

theorem test_alu_shift_count_is_modulo_64 :
    scribeG (exec (.alu (mkIssue 3 6 8 0 5 0)) oneScribe) 3 = some 12#64 := by decide
theorem test_alu_high_product_is_signed :
    scribeG (exec (.alu (mkIssue 3 9 9 0 9 0)) oneScribe) 3 = some 0#64 := by decide

theorem test_cmp_signed_immediate :
    scribeP (exec (.cmp (mkIssue 2 6 0 1 0xFFFFFF02 0)) oneScribe) 2 = some false := by decide
theorem test_cmp_unsigned_immediate :
    scribeP (exec (.cmp (mkIssue 2 6 0 1 0xFFFFFF04 0)) oneScribe) 2 = some true := by decide

theorem test_jmp_indirect_wraps_at_2_14 :
    scribePc (exec (.jmp (mkIssue 0 6 0 1 0x3FFE 0)) oneScribe) = some 4 := by decide
theorem test_loop_end_pops_both_loops :
    scribePc (exec (.nop (mkIssue 0 0 0 0 0 0)) twoLoopEnds) = some 6 := by decide

/-- Array 31 of logical core 0 in service, on physical core 5. -/
def arrayState : State :=
  { oneScribe with
    remap := [(0, { Remap.reset with pcore := 5, mode := .arrays })],
    arrays := [(32 * 5 + 31, { ArrayUnit.reset with evCnt := 0xFFFFFFFF, range := 3 })] }
theorem test_aeval_counts_and_wraps :
    (nextOf (exec (.aeval (mkIssue 2 3 6 0 31 0)) arrayState)).map (fun t => (t.array (32 * 5 + 31)).evCnt) = some 0 := by decide
theorem test_aeval_b8_header_faults :
    (nextOf (exec (.aeval (mkIssue 2 3 9 0 31 0)) arrayState)).map (fun t => (t.scribe 0).mode) = some .faulted := by decide

def emptyJob : Job :=
  { stepNo := 3, started := true, inStep := true, openStroke := 0, dueAt := 0, span := 0, partialPol := true, auto := false,
    refuseAll := false, abandoned := false, strRun := 0, strCnt := 0, cleanRun := 0, lastSpan := 0, halted := false,
    haltCause := 0, resumeReq := false, unloading := false, broadReq := 0, broadRefused := 0, lastBroadReq := 0,
    lastBroadRefused := 0, refusedAt := [], minSlack := 0, worstLcore := 0, slackOf := [], reqList := [], items := [],
    suspects := [], fault := none, hold := none, replaying := false, barEpoch := 0, pageRecs := [],
    statuses := [], decision := none, statusSent := none, ordersDue := false, payloads := [], payloadsLeft := [],
    freeRunHold := false, numHold := false, listFixed := false, returned := none, inserted := none, inserting := false,
    guests := [], switchDue := false, peersDue := false, broken := false, block := [0], pos := 0,
    total := 0, stretched := false, joined := true, heard := [] }
/-- A job in partition 0; g9 holds a B8 header of EUP 4. -/
def broadState : State :=
  { (arrayState.setPart 0 { Part.reset with job := some emptyJob }) with
    scribes := [(0, { runningScribe with
      arch := { runningScribe.arch with g := [(6, 6#64), (9, 0xC000000000000000#64)] } })] }
theorem test_aevalb_grants_within_budget :
    scribeP (exec (.aevalb (mkIssue 60 2 9 0 (31 + 32 * 7 + 256 * 2) 0)) broadState) 2 = some true := by decide

def someEval (kind : EvalKind) (wanted : Bool) : Eval :=
  { kind := kind, lcore := 0, index := 2, dest := 4, drive := .narrow [1, 2], range := 3, gain := 32768, offs := 0, trims := [],
    thresh := [], seed := 0#64, fair := false, wanted := wanted }
def busyArray : State := arrayState.setArray 191 { ArrayUnit.reset with eval := some (someEval .narrow true) }
def busyThreshold : State := arrayState.setArray 191 { ArrayUnit.reset with eval := some (someEval .threshold true) }
def busyUnwanted : State := arrayState.setArray 191 { ArrayUnit.reset with eval := some (someEval .narrow false) }

def fullWindow : State := arrayState.setArray 191 { ArrayUnit.reset with sums := { evals := 255, pairs := [], temp := 0 } }
def wideWindow : State :=
  arrayState.setArray 191 { ArrayUnit.reset with
    sums := { evals := 255, pairs := List.replicate 20 (1, 100, 100) ++ List.replicate 20 (2, -100, -100), temp := 0 } }

def headerState : State :=
  State.reset.setScribe 0 { runningScribe with
    arch := { runningScribe.arch with g := [(6, 6#64), (9, 0xC000000000000000#64)], v := [(1, 0xFF80#2048), (2, 0xFFFFFFFF00000003#2048)] } }
def scribeV (o : Host.Outcome State Fault Refusal) (n : Nat) : Option W2048 :=
  (nextOf o).map (fun t => (t.scribe 0).arch.v_ 0 n)
theorem test_align_n_is_sixteen_times_the_code :
    (scribeV (exec (.dqcAlignN (mkIssue 10 1 0 0 0 0)) headerState) 10).map (fun w => w.extractLsb' 0 64)
      = some (BitVec.ofInt 32 (-16) ++ BitVec.ofInt 32 (-2048)) := by decide +kernel

theorem test_stv_post_increment :
    (nextOf (exec (.stv (mkIssue 0 2 63 1 256 0)) oneScribe)).map (fun t => (t.scribe 0).arch.a_ 0 2) = some 384#64 := by decide
theorem test_ldv_beyond_sram_faults :
    (nextOf (exec (.ldv (mkIssue 5 1 0 0 0x17FF40 0)) oneScribe)).map (fun t => (t.scribe 0).mode) = some .faulted := by decide

theorem test_valu_integer_add_wraps :
    (scribeV (exec (.valu (mkIssue 10 2 2 0 9 0)) headerState) 10).map (fun w => w.extractLsb' 0 64)
      = some (BitVec.ofInt 32 (-2) ++ 6#32) := by decide +kernel

/-- A plan of two cores on logical cores 0 and 1 of partition 0, a scratch pool of 1 KiB and a served edition. -/
def smallPlan : Plan :=
  { jobId := 7, entry := true, edition := 1, ttid := 0, ncore := 2, startAt := 0, hbmKib := 1, roles := [], cores := [],
    lcores := [0, 1], projs := [], chains := [], digest := 0#256 }
def smallImage : Image :=
  { edition := 1, digest := 0#256, ntile := 0, length := 256, codeOff := 256, dir := [],
    bytes := [(1, 9#8)], lost := [] }
def planScribe : Scribe :=
  { runningScribe with
    sram := [(64, 1#8), (127, 2#8)]
    arch := { runningScribe.arch with
      g := [(6, 6#64), (7, 0x400000000001#64), (8, 0x400000000000#64), (9, 0xFFFFFFFFFFFFFFFF#64)]
      a := [(1, 64#64), (2, 128#64), (3, 0x1000000000000080#64), (4, 0x3000000000000000#64), (5, 0x2000000000000000#64)] } }
def listEntry : ListEntry :=
  { slot := 6, prefill := false, speculative := true, resumed := false, ctrl := 0, positions := 1, position := 9,
    adapter := some 3, priority := 2, delivered := 4, seed := 5#64 }
def planState : State :=
  { State.reset with
    scribes := [(0, planScribe), (1, { planScribe with pindex := 1 })],
    parts := [(0, { Part.reset with
      state := .ready, plan := some smallPlan, job := some { emptyJob with reqList := [listEntry] },
      curImage := some smallImage, pagesTotal := 1, scratch := [(128, 3#8)],
      pages := [(0, { part := 0, owner := .priv 6, pos := [], data := [] })] })] }
theorem test_dmaw_stores_little_endian :
    (nextOf (exec (.dmaw (mkIssue 0 1 3 0 64 0)) planState)).map (fun t => (t.part 0).scratch)
      = some [(128, 1#8), (191, 2#8)] := by decide +kernel
theorem test_mimg_reads_the_edition :
    (nextOf (exec (.mimg (mkIssue 0 1 4 0 64 0)) planState)).map (fun t => (t.scribe 0).sram) = some [(65, 9#8)] := by decide +kernel

def committedPage : State :=
  planState.updPart 0 (fun x => { x with pages := [(0, { part := 0, owner := .priv 6, pos := [(0, .committed)], data := [(5, 8#8)] })] })

def openTx : State := planState.setScribe 0 (addTx planScribe .memory true 0 64)
def waitingSend : State := planState.setScribe 0 (postSend planScribe 0 0 64 [1] none)
theorem test_fence_waits_for_memory : nextOf (exec (.fence (mkIssue 0 0 0 0 1 0)) openTx) = some openTx := by decide
theorem test_fence_of_mesh_passes : scribePc (exec (.fence (mkIssue 0 0 0 0 2 0)) openTx) = some 3 := by decide
theorem test_transaction_done_closes :
    (nextOf (exec (.transactionDone 0 1) openTx)).map (fun t => (t.scribe 0).txs) = some [] := by decide

/-- Logical core 0 runs plan index 1; g6 holds an MCAST descriptor of plan indices 0 to 1. -/
def meshState : State :=
  planState.setScribe 0 { planScribe with
    pindex := 1, arch := { planScribe.arch with g := [(6, 0x400000010000#64)] } }
def aRecv (matched : Bool) (data : Option (List Byte)) : RecvPost :=
  { id := 1, tag := 0, peer := 0, device := none, lo := 0, len := 64, matched := matched, sendId := 1, data := data, index := 2 }
def postedRecv : State := waitingSend.setScribe 1 { planScribe with pindex := 1, recvs := [aRecv false none] }
def matchedRecv : State := waitingSend.setScribe 1 { planScribe with pindex := 1, recvs := [aRecv true none] }
def dataRecv : State := waitingSend.setScribe 1 { planScribe with pindex := 1, recvs := [aRecv true (some [1#8])] }
theorem test_request_of_an_old_step_is_counted :
    (nextOf (exec (.rendezvousRequest 1 { peer := 0, device := none, tag := 0, len := 64, id := 1, stepNo := 2 }) waitingSend)).map
      (fun t => (t.pcore 0).discard) = some 1 := by decide
theorem test_answer_reads_the_source :
    (nextOf (exec (.rendezvousAnswer 0 1 1) matchedRecv)).map (fun t => (t.scribe 1).recvs.map (fun r => (r.data.map List.length)))
      = some [some 64] := by decide +kernel

/-- Two cores of a job on physical cores 5 and 6; g6 to g8 hold ligature descriptors. -/
def ligState : State :=
  { planState with
    remap := [(0, { Remap.reset with pcore := 5, mode := .arrays }), (1, { Remap.reset with pcore := 6, mode := .arrays })],
    scribes := [(0, { planScribe with arch := { planScribe.arch with g := [(6, 1#64), (7, 0x40000001#64), (8, 2#64)] } }),
                (1, { planScribe with pindex := 1 })] }
theorem test_contribution_takes_four_slots :
    (nextOf (exec (.ligContribution (mkIssue 0 2 6 0 4 0)) ligState)).map (fun t => (Tbl.getD t.slotsLig 5 []).map (fun f => f.tag))
      = some [4, 5, 6, 7] := by decide +kernel

def oneFlit (f : Nat) : LigFlit :=
  { tag := 4 + f, stepTag := 3, dest := 5, lcore := 0, lfmt := false, lanes := List.replicate 16 2#32, ncontrib := 1,
    lchk := 32#32, terms := [], order := none, pos := 0 }
def gatheredState : State :=
  ligState.setScribe 0 { planScribe with
    flits := [oneFlit 0, oneFlit 1, oneFlit 2, oneFlit 3],
    arch := { planScribe.arch with g := [(6, 0x10000#64)] } }
def waitingReceipt : State :=
  ligState.setScribe 0 { planScribe with receipts := [{ tag := 4, lfmt := false, dest := 9, expected := 2, index := 1, failed := false }] }
def heldFlit : State := { ligState with slotsLig := [(5, [oneFlit 0])] }
theorem test_receipt_timeout_raises :
    (nextOf (exec (.ligReceiptTimeout 0 6) waitingReceipt)).map (fun t => (t.page pgMesh).intRaw) = some 0x100#32 := by
  decide +kernel

def lastAtBar : State := ligState.setScribe 1 { planScribe with pindex := 1, atBar := true }
theorem test_bar_releases :
    (nextOf (exec (.bar (mkIssue 0 0 0 0 0 0)) lastAtBar)).map (fun t => ((t.scribe 0).atBar, (t.scribe 1).atBar)) = some (false, false) := by
  decide
theorem test_wstrk_waits : nextOf (exec (.wstrk (mkIssue 0 0 0 0 0 0)) openTx) = some openTx := by decide

theorem test_reqn_reads_an_entry :
    scribeG (exec (.reqn (mkIssue 20 0 0 0 0 0)) planState) 20 = some 0x900150006#64 := by decide
theorem test_toko_outside_the_list_faults :
    (nextOf (exec (.toko (mkIssue 0 7 7 0 2 0)) planState)).map (fun t => (t.scribe 0).mode) = some .faulted := by decide

/-- Cores 5 and 6, spares of the first row, with their routers and all five ports up. -/
def upCore : State :=
  (State.reset.setPcore 5 { PCore.reset with kind := .spare, rtrUp := true, portUp := 31 }).setPcore 6
    { PCore.reset with kind := .spare, rtrUp := true, portUp := 31 }
/-- A ligature flit of sixteen ones from core 6 to core 4; its CRC is computed outside the model. -/
def aFlit : Flit :=
  { typ := 3, vc := 1, src := 6, dest := 4, tag := 4, stepTag := 3, lfmt := false, last := false, ncontrib := 1, lchk := 16#32,
    payload := 0x1000000010000000100000001000000010000000100000001000000010000000100000001000000010000000100000001000000010000000100000001#512, edge := 0 }
/-- A response for core 6 from the memory stack north of core 5. -/
def memFlit : Flit := { aFlit with typ := 5, vc := 0, src := 0x7FF, dest := 6, ncontrib := 0, lchk := 0#32, payload := 0#512 }
def ligHeld : State :=
  { upCore with slotsLig := [(6, [{ tag := 4, stepTag := 3, dest := 4, lcore := 0, lfmt := false, lanes := List.replicate 16 1#32, ncontrib := 1,
                                    lchk := 16#32, terms := [], order := none, pos := 0 }])] }
theorem test_retry_exhausted_clears_the_port :
    (nextOf (exec (.meshRetryExhausted 5 1) upCore)).map (fun t => (t.pcore 5).portUp) = some 29 := by decide
theorem zero_crc_32 : (List.replicate 32 0#8).foldl (crcByte 16 0x1021#16) 0xFFFF#16 = 0xF14C#16 := by decide +kernel
theorem zero_crc_64 : (List.replicate 32 0#8).foldl (crcByte 16 0x1021#16) 0xF14C#16 = 0xD6DA#16 := by decide +kernel
theorem memFlit_crc : flitCrc memFlit = 0x42D2#16 := by
  have h : numBytes 64 memFlit.payload.toNat = List.replicate 32 0#8 ++ List.replicate 32 0#8 := by decide +kernel
  rw [flitCrc, crc16, crcBytes, h, List.foldl_append, List.foldl_append, zero_crc_32, zero_crc_64]
  decide +kernel
/-- Eight lanes of 1, as bytes. -/
def oneLanes : List Byte := (List.replicate 8 [1#8, 0#8, 0#8, 0#8]).flatten
theorem one_crc_32 : oneLanes.foldl (crcByte 16 0x1021#16) 0xFFFF#16 = 0x1418#16 := by decide +kernel
theorem one_crc_64 : oneLanes.foldl (crcByte 16 0x1021#16) 0x1418#16 = 0x6FC#16 := by decide +kernel
theorem aFlit_crc : flitCrc aFlit = 0x6BF5#16 := by
  have h : numBytes 64 aFlit.payload.toNat = oneLanes ++ oneLanes := by decide +kernel
  rw [flitCrc, crc16, crcBytes, h, List.foldl_append, List.foldl_append, one_crc_32, one_crc_64]
  decide +kernel
theorem test_ligature_flit_takes_a_slot :
    (nextOf (exec (.flitReceived 5 2 0x6BF5#16 aFlit) ligHeld)).map (fun t => ((Tbl.getD t.slotsLig 5 []).length, (Tbl.getD t.slotsLig 6 []).length))
      = some (1, 0) := by
  simp only [exec, execFlitReceived, aFlit_crc]
  decide +kernel
theorem test_flit_from_an_edge_takes_a_buffer :
    (nextOf (exec (.flitReceived 5 0 0x42D2#16 memFlit) upCore)).map (fun t => (bufOf t 5 0 0).length) = some 1 := by
  simp only [exec, execFlitReceived, memFlit_crc]
  decide +kernel

/-- The state after reset with bring-up step 4 done: every device-global page is reachable. -/
def liveState : State := { State.reset with bring := { Bring.reset with doneMap := 16 } }
/-- Core 5 serves logical core 0, core 6 is a spare, and the PF has armed the MESH page. -/
def meshOrders : State :=
  { liveState with
    arms := [(pgMesh, 0)],
    pcores := [(5, { PCore.reset with kind := .active }), (6, { PCore.reset with kind := .spare })],
    remap := [(0, { Remap.reset with pcore := 5, host := 5, mode := .arrays })] }
theorem test_fence_only_hosts_the_logical_core :
    (nextOf (exec (.fenceOnly 0 5) meshOrders)).map (fun t => ((t.pcore 5).kind, (t.remapOf 0).next))
      = some (.fenced, some (5, .hosted, 5)) := by decide +kernel
theorem test_migrate_of_a_spare_is_refused :
    (nextOf (exec (.migrate 0 6) meshOrders)).map (fun t => t.mesh.fenceResult) = some 1 := by decide +kernel

/-- Strokes run in LOCKED, at count 0 of stroke 70,000. -/
def runState : State :=
  { liveState with stroke := { Stroke.reset with state := .locked, number := 70000, confirmed := true, refOk := true } }
/-- As `runState`, with partition 0 READY. -/
def runPart : State := { runState with parts := [(0, { Part.reset with state := .ready })] }
theorem test_boundary_number :
    (nextOf (exec .strokeBoundary runPart)).map (fun t => (t.stroke.number, t.stroke.count)) = some (70001, 0) := by decide +kernel

/-- A started job in its tenth step, opened at this boundary. -/
def aJob : Job :=
  { Job.loaded [0] 0 with started := true, inStep := true, openStroke := 70000, stepNo := 9, listFixed := true }
def wideJob : Job := { aJob with block := [0, 1] }
/-- Partition 0 runs a plan without cores in that step. -/
def jobState : State :=
  { runState with parts := [(0, { Part.reset with state := .ready, plan := some smallPlan, job := some aJob })] }
/-- The same with a block of two devices, of which this one is the entry device. -/
def wideState : State :=
  { runState with
    parts := [(0, { Part.reset with state := .ready, plan := some smallPlan, job := some wideJob })] }
def aStatus (number : Nat) : StatusMsg :=
  { position := 1, ready := true, stepNo := 9, number := number, holds := [],
    holdAll := false, lost := false, paired := false, canSwitch := false, refused := [] }
theorem test_status_message_of_another_stroke :
    (nextOf (exec (.statusMessage 0 (aStatus 70001)) wideState)).map (fun t => (t.stroke.numErr, (t.job 0).map (·.numHold)))
      = some (true, some true) := by decide +kernel

def jobWith (j : Job) : State :=
  { runState with parts := [(0, { Part.reset with state := .ready, plan := some smallPlan, job := some j })] }
def heldStep : Hold :=
  { age := 4, paired := false, stepNo := 9, slots := [6], items := [], suspect := none, fault := none,
    kind := .normal, sameFails := [], otherFail := false, faultAgain := none, measure := none, units := [], provers := [], tried := [],
    later := [] }
theorem test_second_abandonment_halts :
    (nextOf (exec (.spanAbandon 0) (jobWith { aJob with span := 8, abandoned := true }))).map (fun t => (t.job 0).map (·.haltCause))
      = some (some 1) := by decide +kernel

theorem test_epoch_locks :
    (nextOf (exec (.strokeSyncPulse true 7)
        { liveState with stroke := { Stroke.reset with state := .waitEpoch }, regs := [(0x2003060, 2#32)] })).map
      (fun t => (t.stroke.state, t.stroke.number)) = some (.locked, 131072) := by decide +kernel

theorem test_switch_arm_clamps :
    (nextOf (exec (.switchArm 0) { runState with regs := [(0x2003040, 1#32), (0x2003044, 0#32), (0x2003048, 70002#32)] })).map
      (fun t => t.stroke.pend) = some (some (2500, 0x08000802#32, 70002)) := by decide +kernel

/-- Partition 0 holds slots 0 to 15; slot 6 holds a request of generation 3 in DECODE. -/
def serveState : State :=
  { runState with
    parts := [(0, { Part.reset with
      state := .ready, cfg := { PartCfg.zero with scount := 16 }, pagesTotal := 4, plan := some smallPlan,
      job := some { aJob with listFixed := false } })],
    slots := [(6, { Slot.reset with
      state := .decode, gen := 3, desc := { Desc.zero with kind := 1, promptLen := 5, scrollLen := 64 }, nextSeq := 2 })] }
theorem test_cancel_takes_its_point :
    (nextOf (exec (.cancel 1 0 0x0000020000030006#64) serveState)).map (fun t => ((t.slot 6).cancel, (t.slot 6).cancelTag))
      = some (some (70000, 0), 1) := by decide +kernel

def openState : State := serveState.setPart 0 { serveState.part 0 with bme := true }
/-- A descriptor of a request: prompt of 5 tokens at address 64, 9 tokens at most, a scroll of 64 records. -/
def goodDesc : List Byte :=
  [1#8] ++ List.replicate 23 0#8 ++ [64#8] ++ List.replicate 7 0#8 ++ [5#8, 0#8, 0#8, 0#8, 9#8] ++ List.replicate 35 0#8
  ++ [64#8] ++ List.replicate 183 0#8
theorem test_refused_descriptor_moves_the_tail :
    (nextOf (exec (.requestDescriptor 0 (some [])) openState)).map (fun t => ((t.part 0).tail, t.serve.intakes)) = some (1, 0) := by
  decide +kernel

/-- Slot 6 in a state, with page 2 of the pool private to it. -/
def parkState (st : SlotState) (ctrl : Nat) : State :=
  (openState.setSlot 6 { openState.slot 6 with state := st, kvMap := [(0, 2)], resumeCtrl := ctrl, position := 64 }).setPart 0
    { openState.part 0 with pages := [(2, { part := 0, owner := .priv 6, pos := [(3, .committed)], data := [(12288, 7#8)] })] }
theorem test_park_copy :
    (nextOf (exec (.parkCopyDone 6) (parkState .parking 0))).map (fun t => t.hostOut) = some [(12288, 7#8)] := by decide +kernel

def aCheck (first : Option (Nat × List W64)) : Check :=
  { id := 5, part := 0, pcore := 7, traces := [{ lcore := 3, ckpt := Arch.reset, vals := [], digest := 11#64 }], stroke := 69000,
    first := first, checker := 9 }
def sampleState (first : Option (Nat × List W64)) : State :=
  { liveState with
    pcores := [(7, { PCore.reset with kind := .active, lcore := 3 }), (9, { PCore.reset with kind := .spare }),
      (10, { PCore.reset with kind := .spare })],
    integ := { Integ.reset with checks := [aCheck first] } }
def aTaint : Taint :=
  { seq := 0, source := 1, result := 0, part := 0, mirrored := false, prev := none,
    pcore := 7, array := 0xFFFF, jobId := 7, first := 5, last := 9, slots := [(6, 3)] }
/-- One report waits, and the ring has so many KiB. -/
def taintState (kib : Nat) : State :=
  { liveState with
    pf := { Pf.reset with bme := true }, regs := [(0x2033078, BitVec.ofNat 32 kib)],
    integ := { Integ.reset with taints := [aTaint] } }
theorem test_taint_report_moves_the_index :
    (nextOf (exec .taintReportWrite (taintState 8))).map (fun t => (t.integ.taintProd, t.integ.taints)) = some (128, []) := by
  decide +kernel

/-- A round of spare core 9 whose engine part is outstanding, with core 10 as prover. -/
def aProof (busy : Option Nat) (half : Bool) : ProofRun :=
  { pcore := 9, left := [32], busy := busy, half := half, since := 0, subst := none,
    failed := [], seed := 0#64, range := 0, result := none, prover := 10, before := 0, forced := 0 }
def proofState (r : ProofRun) : State :=
  { runState with
    pcores := [(9, { PCore.reset with kind := .spare }), (10, { PCore.reset with kind := .spare })],
    regs := [(0x2033044, 0#32)], integ := { Integ.reset with proof := some r } }
theorem test_proof_next_ignores_core_1152 :
    (nextOf (exec (.proofNext 0 0x80000480#32) runState)).map (fun t => t.integ.proofNext) = some [] := by decide +kernel

/-- Partition 0 exists with an image in NEXT, and the PF has armed the WEIGHT page. -/
def weightState : State :=
  { liveState with
    arms := [(pgWeight, 0)], parts := [(0, { Part.reset with state := .ready, nextImage := some smallImage })] }
theorem test_image_load_begins :
    (nextOf (exec (.imageLoad 0 0x80000020#32) { weightState with regs := [(0x2034048, 4#32)] })).map (fun t => t.weight.busy)
      = some (some (0, false, 4)) := by decide +kernel

def loadState (reload : Bool) : State :=
  { weightState with weight := { Weight.reset with busy := some (0, reload, 4) } }
/-- A refresh of array 0 of spare core 9. -/
def aProg : Prog :=
  { pcore := 9, array := 0, why := .refresh, part := 0, tile := 0, fromNext := false, tries := 0,
    repair := false, started := false, shadowOf := none, out := true, dueNo := 0 }
def progState : State :=
  { liveState with
    pcores := [(9, { PCore.reset with kind := .spare })],
    parts := [(0, { Part.reset with state := .ready, curImage := some { smallImage with ntile := 1 } })],
    weight := { Weight.reset with queue := [aProg] } }
theorem test_write_slot_takes_the_programming :
    (nextOf (exec .writeSlotStart progState)).map (fun t => ((t.array 288).resState, (t.array 288).writeCnt))
      = some (.programming, 1) := by decide +kernel

/-- Partition 0 with an image in NEXT and a change under way; its job stands between two steps. -/
def changeState (c : Change) : State :=
  { runState with
    parts := [(0, { Part.reset with
      state := .ready, nextImage := some smallImage, change := c,
      job := some { aJob with inStep := false, ordersDue := true, listFixed := false } })] }
theorem test_offline_change_serves_the_edition :
    (nextOf (exec (.offlineChangeComplete 0) (changeState .offline))).map (fun t => ((t.part 0).edition, (t.part 0).change))
      = some (1, .none) := by decide +kernel

/-- Array 0 of ACTIVE core 9 is RESIDENT in the edition served, and the PF has armed the CAL page. -/
def calState : State :=
  { runState with
    arms := [(pgCal, 0)], arrays := [(288, { ArrayUnit.reset with resState := .resident, edition := 1, verified := true })],
    pcores := [(9, { PCore.reset with kind := .active })], parts := [(0, { Part.reset with state := .ready, edition := 1 })] }
theorem test_cal_order_in_force :
    (nextOf (exec (.calOrder 0 0x80000009#32) calState)).map (fun t => (t.cal.busy, t.cal.left)) = some (true, [288]) := by
  decide +kernel
def aProj : Proj := { id := 3, nIn := 16, nOut := 16 }
def trimState : State :=
  { runState with
    parts := [(0, { Part.reset with
      state := .ready, cfg := { PartCfg.zero with adapt := 2 }, plan := some { smallPlan with projs := [aProj] }, curImage := some smallImage,
      trims := [(0, { Trim.reset with en := true })] })] }
def aCapture : Capture := { x := List.replicate 16 1#32, slices := [], y := List.replicate 16 2#32, tiles := [], fp32 := false }
theorem test_capture_joins_the_batch :
    (nextOf (exec (.trimAdapterTraining 0 0 4 (.capture aCapture)) trimState)).map (fun t => (t.trim 0 0).captures.length) = some 1 := by
  obtain ⟨o, h⟩ := poolPlace_some (s := trimState) (x := trimState.part 0) (n := 4 * (aProj.nIn + aProj.nOut))
    (List.mem_cons_self) (by decide +kernel)
  have hp : (planProjs (trimState.part 0))[0]? = some aProj := by decide +kernel
  have hi : (trimState.part 0).curImage = some smallImage := by decide +kernel
  simp only [exec, execTrimAdapterTraining, hp, captureTrim, hi, h]
  rfl

/-- Partition 0 serves edition 1, without a plan, and an operation on adapter slot 3 is in progress. -/
def adaptState (op : Nat) : State :=
  { runState with
    parts := [(0, { Part.reset with
      state := .ready, edition := 1, cfg := { PartCfg.zero with adapt := 2 }, adBusy := some (op, 3, 4096) })] }
/-- An adapter image of edition 1 with one entry of rank 1 and widths 1 and 1. -/
def goodAdapter : List Byte :=
  leBytes 4 0x00000001 ++ leBytes 4 0x00010001 ++ leBytes 8 1 ++ leBytes 4 68 ++ leBytes 4 0x38F4EBD9 ++ leBytes 8 0
  ++ leBytes 4 3 ++ leBytes 4 1 ++ leBytes 4 1 ++ leBytes 4 1 ++ leBytes 4 0x3F800000 ++ leBytes 4 0 ++ leBytes 8 64
  ++ leBytes 4 0
theorem test_unload_takes_the_adapter_away :
    (nextOf (exec (.adapterLoadDone 0 none) (adaptState 2))).map (fun t => ((t.part 0).adBusy, (t.part 0).adResult))
      = some (none, 0) := by decide +kernel

def planLoading : State :=
  { runState with parts := [(0, { Part.reset with state := .ready, pstat := { PlanStat.reset with busy := 1, len := 4096 } })] }
/-- A plan binary of one role with the word HALT, bound to one core, tolerant of any timing. -/
def goodPlan : List Byte :=
  List.flatten [[0x46#8, 0x5A#8, 0x50#8, 0x4C#8], leBytes 2 1, leBytes 2 0xC0, leBytes 4 0x900, leBytes 2 1, leBytes 2 1, leBytes 8 1,
   leBytes 4 0, leBytes 4 0, leBytes 8 0x40, leBytes 8 0x840, leBytes 8 0x860, leBytes 8 0, List.replicate 2048 0#8,
   leBytes 2 1, leBytes 2 1, leBytes 4 0, leBytes 8 0x878, leBytes 8 0x900, leBytes 8 0,
   leBytes 8 0x870, leBytes 4 1, leBytes 4 0, leBytes 8 0x0400000000000000, leBytes 4 0, leBytes 4 0x880,
   List.replicate 128 0xFF#8]
/-- Partition 0 owns logical core 0, serves edition 1, and reads that binary. -/
def planReady : State :=
  { runState with
    remap := [(0, { Remap.reset with pcore := 5, host := 5, mode := .arrays })],
    parts := [(0, { Part.reset with
      state := .ready, edition := 1, cfg := { PartCfg.zero with lcount := 1 },
      pstat := { PlanStat.reset with busy := 1, len := 0x900, cmd := 4#32, startAt := 70002 } })] }
theorem test_plan_load_with_a_wrong_format :
    (nextOf (exec (.planLoadDone 0 (some [])) planLoading)).map (fun t => ((t.part 0).pstat.busy, (t.part 0).pstat.result))
      = some (0, 1) := by decide +kernel

/-- Port 2, towards -Y, in a state, of the device at coordinate 0 of one rack. -/
def linkState (st : PortState) : State :=
  { liveState with
    pins := { Pins.reset with linkIdle := false },
    link := { Link.reset with racks := 1, valid := true },
    ports := [(2, { Port.reset with state := st, dir := 2, rxSeq := 7 })] }
/-- A block of empty slots, whose first four bytes bring the CRC to 0, with a CONTROL word and a CRC (computed outside the model). -/
def aBlock (control crc : Nat) : List Byte :=
  List.replicate 4 0xFF#8 ++ List.replicate 1020 0#8 ++ (leBytes 8 0x7777777777777777 ++ leBytes 4 control ++ leBytes 4 crc)
theorem crc_of_zeros (n : Nat) : (List.replicate n 0#8).foldl crc32cByte 0#32 = 0#32 := by
  induction n with
  | zero => rfl
  | succ n ih => rw [List.replicate_succ, List.foldl_cons, show crc32cByte 0#32 0#8 = 0#32 by decide +kernel, ih]
theorem crc_of_block {bs tail : List Byte} (h : bs.take 1036 = List.replicate 4 0xFF#8 ++ (List.replicate 1020 0#8 ++ tail)) :
    crc32c (bs.take 1036) = tail.foldl crc32cByte 0#32 ^^^ 0xFFFFFFFF#32 := by
  have f : (List.replicate 4 0xFF#8).foldl crc32cByte 0xFFFFFFFF#32 = 0#32 := by decide +kernel
  rw [h, crc32c, List.foldl_append, List.foldl_append, f, crc_of_zeros]
/-- Block 8, block 8 with a NAK, and block 9. -/
def blockNext : List Byte := aBlock 8 0x9AD0880A
def blockNaks : List Byte := aBlock 0x1000008 0x68BB0B09
def blockSkips : List Byte := aBlock 9 0x479522B2
theorem blockNext_ok : blockCrcOk blockNext = true := by
  rw [blockCrcOk, crc_of_block (tail := leBytes 8 0x7777777777777777 ++ leBytes 4 8) (by decide +kernel)]
  decide +kernel
theorem blockNaks_ok : blockCrcOk blockNaks = true := by
  rw [blockCrcOk, crc_of_block (tail := leBytes 8 0x7777777777777777 ++ leBytes 4 0x1000008) (by decide +kernel)]
  decide +kernel
theorem blockSkips_ok : blockCrcOk blockSkips = true := by
  rw [blockCrcOk, crc_of_block (tail := leBytes 8 0x7777777777777777 ++ leBytes 4 9) (by decide +kernel)]
  decide +kernel
theorem blockBad_crc : blockCrcOk (aBlock 8 0) = false := by
  rw [blockCrcOk, crc_of_block (tail := leBytes 8 0x7777777777777777 ++ leBytes 4 8) (by decide +kernel)]
  decide +kernel
theorem test_block_in_order_is_taken :
    (nextOf (exec (.linkBlockReceived 2 { bytes := blockNext, corrected := 5 }) (linkState .up))).map
      (fun t => ((t.port 2).rxSeq, (t.port 2).txSeq, (t.port 2).fec)) = some (8, 1, 5) := by
  simp only [exec, execLinkBlockReceived, receiveBlock, inOrder, blockNext_ok]
  decide +kernel
theorem test_fourth_nak_takes_the_port_down :
    (nextOf (exec (.linkBlockReceived 2 { bytes := blockNaks, corrected := 0 })
      ((linkState .up).setPort 2 { (linkState .up).port 2 with replays := 3 }))).map (fun t => (t.port 2).state)
      = some .down := by
  simp only [exec, execLinkBlockReceived, receiveBlock, inOrder, blockNaks_ok]
  decide +kernel

theorem test_coord_write_gives_directions :
    (nextOf (exec (.coordWrite 33 0x03010000#32 (some 5#32)) (linkState .down))).map
      (fun t => ((t.port 6).dir, (t.port 9).dir, t.link.buddy)) = some (6, 1, 5) := by decide +kernel

/-- A pair in a state, with a buddy port UP and no heartbeat for 409.5 ms. -/
def pairState (st : PairState) : State :=
  { runState with
    pins := { Pins.reset with linkIdle := false }, ports := [(6, { Port.reset with state := .up, dir := 6 })],
    parts := [(0, { Part.reset with
      state := .ready, plan := some smallPlan, job := some aJob, pair := { Pair.reset with state := st, hbAge := 4095 } })] }
/-- Another device than the entry device of a job, with a request in slot 6. -/
def listedState_ : State :=
  { runState with
    parts := [(0, { Part.reset with
      state := .ready, cfg := { PartCfg.zero with scount := 16 }, plan := some { smallPlan with entry := false },
      job := some { wideJob with replaying := true } })],
    slots := [(6, { Slot.reset with state := .decode, gen := 3 })] }
theorem test_partner_lost_in_solo :
    (nextOf (exec (.partnerLost 0) (pairState .solo))).map (fun t => (t.part 0).pair.state) = some .lost := by decide +kernel

/-- Two VFs are enabled; partition 0 runs a plan and may write host memory. -/
def vfState : State :=
  { runState with
    pf := { Pf.reset with vfEnable := true, numVfs := 2 },
    parts := [(0, { Part.reset with state := .ready, bme := true, plan := some smallPlan, job := some aJob })] }
theorem test_pf_flr_resets_the_partition :
    (nextOf (exec .pfFlr vfState)).map (fun t => ((t.part 0).state, (t.part 0).rstLast)) = some (.resetting, 3) := by decide +kernel

/-- Partition 0 exists, strokes run, and the PF has armed the PART page. -/
def partState : State := { runState with arms := [(pgPart, 0)], parts := [(0, { Part.reset with state := .ready })] }
/-- Bring-up has passed step 12, no partition exists, and logical cores 0 to 3 are staged. -/
def newPart : State :=
  { liveState with
    bring := { Bring.reset with doneMap := 4112 }, arms := [(pgPart, 0)], regs := [(0x2037044, 0x1000#32)] }
theorem test_create_at_once_in_stopped :
    (nextOf (exec (.create 0 0x80000001#32) newPart)).map (fun t => ((t.part 0).state, (t.part 0).cfg.lcount))
      = some (.ready, 4) := by decide +kernel

/-- Bring-up has completed its first `n` steps. -/
def bringDone (n : Nat) : State :=
  { State.reset with bring := { Bring.reset with step := n, lastDone := n, code := 1, doneMap := 2 ^ (n + 1) - 2 } }
/-- Step `n` runs with a work. -/
def bringBusy (n : Nat) (work : BringWork) : State :=
  { bringDone (n - 1) with bring := { (bringDone (n - 1)).bring with step := n, busy := true, work := some work } }
theorem test_step_out_of_order_is_refused :
    (nextOf (exec (.bringStep2 0 false .boot) State.reset)).map (fun t => (t.bring.code, t.bring.busy)) = some (4, false) := by
  decide +kernel

theorem test_fuse_bank_fails_step_2 :
    (nextOf (exec (.bringStepComplete 5) (bringBusy 2 (.fuses (some 3))))).map (fun t => (t.bring.code, t.bring.detail, t.bring.lastDone))
      = some (6, 3, 1) := by decide +kernel
theorem test_arrays_of_a_bring_up_spare_are_queued :
    let b := bringBusy 12 (.verify [] [])
    let s : State := { b with
      bring := { b.bring with boot := [(0, { smallImage with edition := 1 })], subst := [(7, 2)] }
      arrays := [(65, { ArrayUnit.reset with resState := .resident, edition := 1, tile := 4 })] }
    (nextOf (exec (.bringStepComplete 60) s)).map (fun t => t.weight.queue.map (fun q => (q.pcore, q.array, q.tile))) = some [(7, 1, 4)] := by
  decide +kernel
theorem test_pf_flr_aborts_the_step :
    (nextOf (exec .pfFlr (bringBusy 3 .boot))).map (fun t => (t.bring.code, t.bring.lastDone)) = some (7, 2) := by decide +kernel
theorem test_bad_calibration_record :
    let c : Conv := { Conv.reset with chans := [(3, { Chan.reset with gainDen := 2, sysCal := true })] }
    let s : State := { bringBusy 3 (.converter [] [3]) with conv := c }
    (nextOf (exec (.bringStepComplete 150) s)).map (fun t => ((t.chan 3).gainDen, (t.chan 3).sysCal, (t.page pgConv).intRaw.getLsbD 8))
      = some (1, false, true) := by decide +kernel
theorem test_links_that_do_not_train_degrade_step_13 :
    (nextOf (exec (.bringStepComplete 2000) (bringBusy 13 .boot))).map (fun t => (t.bring.code, t.bring.detail)) = some (3, 0xFFF) := by
  decide +kernel

/-- Bring-up is complete, and the update of partition 0 stands in a state; the switch is asked for stroke 70,010. -/
def fwState (st : Nat) : State :=
  let bank : FwBank := { version := 2, mfDigest := 5#256, image := [7#8] }
  { runPart with
    regs := [(0x200107C, 70010#32)]
    bring := { Bring.reset with doneMap := 0xFFFE, lastDone := 15,
                                fwup := [(0, { Fwup.reset with state := st, cand := some bank, standby := some bank })] } }
theorem test_an_flr_ends_the_update :
    (nextOf (exec .pfFlr (fwState 2))).map (fun t => ((fwupOf t 0).state, (fwupOf t 0).standby.isNone)) = some (0, true) := by decide +kernel
theorem test_bank_switch_exchanges :
    (nextOf (exec (.firmwareBankSwitch 0) (fwState 3))).map (fun t => ((fwupOf t 0).active.map (·.version), (fwupOf t 0).state))
      = some (some 2, 0) := by decide +kernel

/-- Strokes run, and STKCLK is locked. -/
def lockState : State := { vfState with clock := { Clock.reset with en := 2 ^ 21, lock := 2 ^ 21 } }
theorem test_lock_lost_asserts_fault :
    (nextOf (exec (.lockLost 21) lockState)).map (fun t => (t.pins.faultN, t.clock.lock, t.bring.lockStop)) = some (false, 0, true) := by
  decide +kernel
theorem test_warm_reset_loses_the_partitions :
    (nextOf (exec .warmDeviceReset vfState)).map (fun t => (t.parts.length, t.stroke.state)) = some (0, .stopped) := by decide +kernel

/-- A report that waits. -/
def aSecReq (mc : Bool) (snap : Option (List Byte)) : SecReq := { mc := mc, op := 1, nonce := [], pmask := 0#32, snapshot := snap }
/-- A life-cycle state and the requests that wait; the PF has armed the SEC page, and strokes are stopped. -/
def secState (life : Nat) (reqs : List SecReq) : State :=
  { liveState with arms := [(pgSec, 0)], sec := { Sec.reset with lcState := life, reqs := reqs } }
theorem test_a_controller_waits_for_one_request :
    (nextOf (exec .mctpGetCert (secState 1 [aSecReq true none]))).map (fun t => (t.sec.reqs.length, t.sec.mcOut)) = some (1, [[4#8]]) := by
  decide +kernel
theorem test_a_failed_delivery_raises_the_sequence_number :
    (nextOf (exec (.reportSigned false) (secState 1 [{ aSecReq false none with op := 2 }, aSecReq true none]))).map
      (fun t => (t.sec.result, t.sec.seq, t.sec.reqs.length)) = some (5, 0, 1) := by decide +kernel

/-- A SEALED device without partitions that has booted from slot A, with its serial number confirmed. -/
def returnState : State := { secState 1 [] with bring := { Bring.reset with doneMap := 254 } }
theorem test_return_from_sealed :
    (nextOf (exec (.returnOrder 0) returnState)).map (fun t => (t.sec.lcState, t.sec.erasing)) = some (2, true) := by decide +kernel
theorem test_seal_from_manufacture :
    (nextOf (exec (.seal 0) (secState 0 []))).map (fun t => t.sec.lcState) = some 1 := by decide +kernel

/-- Hub 0 is hot, hub 1 calm and cool below its rate divider's rest, region 2 switches, hub 3 has no working core sensor. -/
def hotState : State :=
  { runState with
    regions := [(0, { Region.reset with xe := true }), (2, { Region.reset with divNext := some (14, 1) })],
    therm := { Therm.reset with
      hubs := [(0, { Hub.reset with hot := true }), (1, { Hub.reset with rateDiv := 8, calm := 100000, cool := true }),
               (3, { Hub.reset with blind := true, thDiv := 8 })] } }
theorem test_throttle_steps_down :
    (nextOf (exec (.throttleStep 0) hotState)).map (fun t => ((t.hub 0).thDiv, (t.region 0).divNext)) = some (15, some (15, 1)) := by
  decide +kernel
theorem test_leak_shuts_down :
    (nextOf (exec (.leakDetected true false) hotState)).map (fun t => (t.shut, t.therm.shutSensor, t.pins.regulators))
      = some (true, 510, false) := by decide +kernel

/-- A cap of 900 W, 100 samples of the input current that add up to a sum, 54 V at the bus. -/
def powerState (sum : Int) : State :=
  { runState with
    conv := { Conv.reset with powSum := sum, powCnt := 100, chans := [(2, { Chan.reset with code := 7077888 })] },
    therm := { Therm.reset with capW := 900, capMs := 20 } }
theorem test_power_above_the_cap :
    (nextOf (exec .powerAverage (powerState 400000))).map (fun t => t.therm.capDiv) = some 15 := by decide +kernel
theorem test_flow_edge : (nextOf (exec .flowPulseEdge runState)).map (fun t => t.therm.edges) = some [1] := by decide +kernel

/-- The converter is ready; group 0 names channel 2, and the PF has armed the CONV page. -/
def convState (cal : ConvCal) : State :=
  { runState with
    arms := [(pgConv, 0)], regs := [(0x2031048, 4#32)], conv := { Conv.reset with en := true, ready := true, cal := cal } }
theorem test_cal_full_without_zero :
    (nextOf (exec (.calFull 0 2) (convState ConvCal.reset))).map (fun t => (t.conv.cal.why, t.conv.cal.pass)) = some (5, false) := by
  decide +kernel

/-- Modulator 2 visits channel 6, modulator 3 none; the fast channels are enabled. -/
def visitState : State :=
  { runState with
    regs := [(0x2031044, 0xF0000#32)],
    conv := { Conv.reset with en := true, ready := true, mods := [(2, { Modulator.reset with chan := some 6, off := 9, stroke := 3 })] } }
theorem test_conversion_is_stamped :
    (nextOf (exec (.precisionConversionDone 2 12288) visitState)).map (fun t => ((t.chan 6).code, (t.chan 6).stampOff, (t.modulator 2).chan))
      = some (12288, 9, none) := by decide +kernel
theorem test_early_sample_counts :
    (nextOf (exec (.sarSample 0 5) { visitState with conv := { visitState.conv with ready := false } })).map (fun t => t.conv.early)
      = some 1 := by decide +kernel

abbrev pgHbmPage : Nat := pgHbm 0
theorem test_forced_event_is_raised :
    (nextOf (exec (.intForce 0 pgInteg 0xFFFFFFFF#32) vfState)).map (fun t => (t.page pgInteg).intRaw) = some 0xFFF#32 := by decide +kernel
theorem test_unarmed_write_is_captured :
    (nextOf (exec (.registerWrite 0 pgPart 0x068 4 1#64) vfState)).map (fun t => ((t.page pgPart).capt).map (·.kind)) = some (some 1) := by
  decide +kernel

/-- The words are laid out by hand: code in [63:56], dest [55:50], src1 [49:44], src2 [43:38], guard [37:35], flags [34:32], immediate. -/
theorem test_word_li : (decodeScribe 0x1014000180000000#64).map (fun d => (d.1, d.2.dest, d.2.flags, d.2.imm))
    = some (.li, 5#6, 1#3, 0x80000000#32) := by decide
theorem test_word_addi : (decodeScribe 0x1210600000000007#64).map (fun d => (d.1, d.2.dest, d.2.src1, d.2.imm))
    = some (.addi, 4#6, 6#6, 7#32) := by decide
theorem test_word_reserved_code : decodeScribe 0x0900000000000000#64 = none := by decide

theorem test_reset_limits : State.reset.reg pgTherm 0x04C = BitVec.ofNat 32 (regReset 9 0x04C) := by decide

/-! ### Ill-formed commands: one for each check, and a well-formed neighbour -/

theorem test_wf_lcore : (mkIssue 0 0 0 0 0 0).wf = true ∧ { mkIssue 0 0 0 0 0 0 with lcore := 1024 }.wf = false := by decide
theorem test_wf_hw : { mkIssue 0 0 0 0 0 0 with hw := .sramCorrected 0x180000 }.wf = false
    ∧ { mkIssue 0 0 0 0 0 0 with hwOther := .hbmCorrected 8 0 }.wf = false := by decide
theorem test_wf_source : (Instr.run 34).wf = true ∧ (Instr.run 35).wf = false := by decide
theorem test_wf_partition : (Instr.jobStart 31).wf = true ∧ (Instr.jobStart 32).wf = false := by decide
theorem test_wf_pcore : (Instr.fenceOnly 0 1151).wf = true ∧ (Instr.fenceOnly 0 1152).wf = false := by decide
theorem test_wf_array : (Instr.trackingWindowEnd 36863).wf = true ∧ (Instr.trackingWindowEnd 36864).wf = false := by decide
theorem test_wf_router_port : (Instr.meshCreditTimeout 0 4).wf = true ∧ (Instr.meshCreditTimeout 0 5).wf = false := by decide
theorem test_wf_flit : (Instr.flitReceived 5 2 0x6BF5#16 aFlit).wf = true ∧ (Instr.flitReceived 5 0 0#16 { aFlit with vc := 2 }).wf = false
    ∧ (Instr.flitReceived 5 0 0#16 { aFlit with edge := 21 }).wf = false
    ∧ (Instr.proofPartJudge 33 0#64 0#64).wf = false := by decide
theorem test_wf_link_port : (Instr.retrain 0 11).wf = true ∧ (Instr.retrain 0 12).wf = false := by decide
theorem test_wf_region : (Instr.throttleStep 7).wf = true ∧ (Instr.throttleStep 8).wf = false
    ∧ (Instr.crossingMesochronous 0 3).wf = false := by decide
theorem test_wf_stack : (Instr.hbmCeRateCheck 7).wf = true ∧ (Instr.hbmCeRateCheck 8).wf = false := by decide
theorem test_wf_slot : (Instr.parkCopyDone 65535).wf = true ∧ (Instr.parkCopyDone 65536).wf = false := by decide
theorem test_wf_handle : (Instr.handleTtlExpired 16383).wf = true ∧ (Instr.handleTtlExpired 16384).wf = false := by decide
theorem test_wf_channel : (Instr.calZero 0 19).wf = true ∧ (Instr.calZero 0 20).wf = false ∧ (Instr.sarSample 4 0).wf = false
    ∧ (Instr.precisionConversionDone 4 0).wf = false ∧ (Instr.groupDue 2).wf = false := by decide
theorem test_wf_function : (Instr.msixUnmask 32 63).wf = true ∧ (Instr.msixUnmask 33 0).wf = false ∧ (Instr.msixUnmask 0 64).wf = false := by
  decide
theorem test_wf_page : (Instr.captClr 0 0x3FFF).wf = true ∧ (Instr.captClr 0 0x4000).wf = false := by decide
theorem test_wf_access : (Instr.registerWrite 0 0 0xFFC 4 0#64).wf = true ∧ (Instr.registerWrite 0 0 0xFFD 4 0#64).wf = false
    ∧ (Instr.registerWrite 0 0 0 9 0#64).wf = false ∧ (Instr.windowWrite 0 0 (2 ^ 30) []).wf = false := by decide
theorem test_wf_sensor : (Instr.thermalSample [(308, { ok := true, value := 0 })]).wf = false
    ∧ (Instr.lockLost 32).wf = false := by decide
theorem test_wf_descriptor : (Instr.requestDescriptor 0 none).wf = true ∧ (Instr.requestDescriptor 0 (some [])).wf = false := by decide
theorem test_wf_work : (Instr.bringStep8 0 false (.bist [1152])).wf = false ∧ (Instr.bringStep9 0 false (.mesh [] [(0, 5)] true [])).wf = false
    ∧ (Instr.bringStep7 0 false (.hbm (List.replicate 9 (0, 0)))).wf = false ∧ (Instr.bringStep3 0 false (.converter [(20, 0)] [])).wf = false
    ∧ (Instr.bringStep4 0 false (.plls [(32, none)])).wf = false ∧ (Instr.bringStep11 0 false (.trims [36864] true)).wf = false := by decide
theorem test_wf_messages : (Instr.statusMessage 0 { aStatus 0 with number := 65536 }).wf = false
    ∧ (Instr.jobControlMessage 0 (.freed [65536])).wf = false ∧ (Instr.jobControlMessage 0 (.registration [] 0 0 0)).wf = false
    ∧ (Instr.mirrorData 0 true (.cancel 65536)).wf = false := by decide

/-! ### States that meet the hypotheses of the statements -/

theorem wit_scalarMoves :
    issues .nop (mkIssue 0 0 0 0 0 0) oneScribe = true ∧ issues .li (mkIssue 5 0 0 1 0x80000000 0) oneScribe = true
      ∧ issues .li (mkIssue 0 0 0 0 7 0) oneScribe = true ∧ issues .addi (mkIssue 15 31 0 1 9 0) oneScribe = true
      ∧ issues .addi (mkIssue 31 15 0 3 0xFFFFFFFF 0) oneScribe = true ∧ issues .addi (mkIssue 1 2 0 2 1 0) oneScribe = true
      ∧ issues .addi (mkIssue 1 2 0 0 1 0) oneScribe = true
      ∧ issues .movsr (mkIssue 3 0 0 0 6 0) oneScribe = true ∧ issues .sel (mkIssue 3 4 5 0 7 0) oneScribe = true := by decide
theorem wit_registerFile : (1 : Nat) ≠ 0 := by decide

theorem wit_alu : issues .alu (mkIssue 3 6 7 0 0 0) oneScribe = true ∧ issues .alu (mkIssue 3 6 7 0 9 0) oneScribe = true
    ∧ issues .alu (mkIssue 0 6 7 0 13 0) oneScribe = true := by decide

theorem wit_cmp : issues .cmp (mkIssue 2 6 7 0 0 0) oneScribe = true ∧ issues .cmp (mkIssue 2 6 0 1 0xFFFFFF05 0) oneScribe = true
    ∧ issues .cmp (mkIssue 0 6 7 0 3 0) oneScribe = true := by decide

theorem wit_branches : issues .jmp (mkIssue 0 0 0 0 3 0) oneScribe = true ∧ issues .jmp (mkIssue 0 6 0 1 9 0) oneScribe = true
    ∧ issues .brp (mkIssue 0 1 0 0 4 0) oneScribe = true
    ∧ issues .loop (mkIssue 0 0 0 0 0x00020003 0) oneScribe = true ∧ issues .loop (mkIssue 0 0 0 0 0x00000003 0) oneScribe = true
    ∧ (oneScribe.scribe 0).pc + 3 < (oneScribe.scribe 0).nInstr ∧ (oneScribe.scribe 0).loops.length < 4
    ∧ (∀ r ∈ (oneScribe.scribe 0).loops, r.start ≤ (oneScribe.scribe 0).pc + 1 ∧ (oneScribe.scribe 0).pc + 3 ≤ r.last)
    ∧ issues .loop (mkIssue 0 0 0 0 0x00020001 0) fourLoops = true ∧ 4 ≤ (fourLoops.scribe 0).loops.length := by decide

theorem wit_arrayEvaluations :
    serviceOf arrayState 0 31 = .array ∧ (arrayState.array (32 * (arrayState.remapOf 0).pcore + 31)).eval = none
      ∧ ((arrayState.scribe 0).arch.g_ 0 6).getLsbD 63 = false ∧ ((arrayState.scribe 0).arch.g_ 0 9).getLsbD 63 = true
      ∧ issues .aeval (mkIssue 62 63 6 0 31 0) arrayState = true ∧ issues .athr (mkIssue 1 3 6 0 (31 + 32 * 62) 0) arrayState = true
      ∧ issues .arefc (mkIssue 31 3 6 0 31 0) arrayState = true ∧ issues .aproof (mkIssue 62 31 0 0 (31 + 32 * 11) 0) arrayState = true
      ∧ issues .aeval (mkIssue 62 63 9 0 31 0) arrayState = true ∧ issues .athr (mkIssue 1 3 9 0 31 0) arrayState = true
      ∧ issues .arefc (mkIssue 31 3 9 0 31 0) arrayState = true := by decide

theorem wit_broadRequests :
    ∃ j, broadState.job 0 = some j ∧ j.replaying = false ∧ j.inserting = false ∧ j.partialPol = true
      ∧ issues .aevalb (mkIssue 60 2 9 0 (31 + 32 * 7 + 256 * 1) 0) broadState = true
      ∧ serviceOf broadState 0 31 = .array ∧ (broadState.array (32 * (broadState.remapOf 0).pcore + 31)).eval = none
      ∧ ((broadState.scribe 0).arch.g_ 0 9).getLsbD 63 = true
      ∧ (((broadState.scribe 0).arch.g_ 0 9).extractLsb' 60 3).toNat ≤ 4 := ⟨_, rfl, by decide⟩

theorem wit_arrayDelivery :
    (arrayState.array 0).eval = none
      ∧ ∃ e, (busyArray.array 191).eval = some e ∧ e.wanted = true ∧ e.fair = false
        ∧ replayed busyArray (busyArray.scribe e.lcore).part 191 = false ∧ e.kind = .narrow ∧ e.drive = .narrow [1, 2] :=
  ⟨rfl, _, rfl, by decide⟩
theorem wit_arrayDeliveryThreshold :
    ∃ e, (busyThreshold.array 191).eval = some e ∧ e.wanted = true ∧ e.fair = false
      ∧ replayed busyThreshold (busyThreshold.scribe e.lcore).part 191 = false ∧ e.kind = .threshold
      ∧ e.drive = .narrow [1, 2] := ⟨_, rfl, by decide⟩
theorem wit_arrayDeliveryUnwanted : ∃ e, (busyUnwanted.array 191).eval = some e ∧ e.wanted = false := ⟨_, rfl, by decide⟩

theorem wit_rangeAndLogs :
    issues .arange (mkIssue 0 6 0 0 11 0) arrayState = true ∧ issues .achk (mkIssue 31 0 0 0 0xFFFFFFFF 0) arrayState = true
      ∧ (arrayState.remapOf 0).mode = .arrays
      ∧ (∀ n < 32, (arrayState.array (arrayKey arrayState 0 n)).eval = none)
      ∧ (arrayState.array 191).sums.evals < trackWin arrayState (191 / 32)
      ∧ trackWin fullWindow (191 / 32) ≤ (fullWindow.array 191).sums.evals
      ∧ windowAccepted (pairSums (fullWindow.array 191).sums.pairs) (fullWindow.array 191).range = false
      ∧ trackWin wideWindow (191 / 32) ≤ (wideWindow.array 191).sums.evals
      ∧ windowAccepted (pairSums (wideWindow.array 191).sums.pairs) (wideWindow.array 191).range = true := by decide

theorem wit_quantisers :
    issues .qb4 (mkIssue 63 56 6 0 0xFFFF 0) oneScribe = true ∧ issues .qb4 (mkIssue 63 60 6 7 (5 + 32 * 7) 0) oneScribe = true
      ∧ issues .qb4 (mkIssue 63 60 6 5 (5 + 65536 * 31) 0) oneScribe = true
      ∧ issues .qb8 (mkIssue 62 56 6 0 31 0) oneScribe = true ∧ ((oneScribe.scribe 0).arch.g_ 0 6).getLsbD 63 = false
      ∧ issues .qb8 (mkIssue 62 56 9 0 31 0) oneScribe = true ∧ ((oneScribe.scribe 0).arch.g_ 0 9).getLsbD 63 = true := by decide

theorem wit_partials :
    issues .dqc (mkIssue 63 62 0 0 7 0) oneScribe = true ∧ issues .dqc (mkIssue 63 60 0 1 (7 + 8 * 9) 0) headerState = true
      ∧ ((headerState.scribe 0).arch.g_ 0 9).getLsbD 63 = true
      ∧ (((headerState.scribe 0).arch.g_ 0 9).extractLsb' 60 3).toNat ≤ 4
      ∧ issues .dqc (mkIssue 63 60 0 1 (7 + 8 * 6) 0) headerState = true
      ∧ ((headerState.scribe 0).arch.g_ 0 6).getLsbD 63 = false
      ∧ issues .dqc (mkIssue 63 63 63 2 (6 + 32 * 11) 0) headerState = true
      ∧ issues .cvt (mkIssue 60 63 0 0 4 0) oneScribe = true ∧ issues .cvt (mkIssue 63 62 0 0 0 0) oneScribe = true := by decide

theorem wit_vectorMoves :
    Mem.wf (oneScribe.scribe 0).sram = true ∧ issues .ldv (mkIssue 63 1 0 0 0 0) oneScribe = true
      ∧ issues .stv (mkIssue 0 2 63 1 256 0) oneScribe = true
      ∧ sramReadWaits (oneScribe.scribe 0) 64 256 = false ∧ sramWriteWaits (oneScribe.scribe 0) 128 256 = false
      ∧ (((oneScribe.scribe 0).arch.a_ 0 1).extractLsb' 60 4).toNat = 0
      ∧ (((oneScribe.scribe 0).arch.a_ 0 1 + (0x17FF40#32).signExtend 64).extractLsb' 0 60).toNat % 64 = 0
      ∧ 0x180000 < (((oneScribe.scribe 0).arch.a_ 0 1 + (0x17FF40#32).signExtend 64).extractLsb' 0 60).toNat + 256 := by decide

theorem wit_matrixTiles : issues .mma8 (mkIssue 7 63 62 0 0 0) oneScribe = true
    ∧ issues .mma4 (mkIssue 0 1 2 1 0 0) oneScribe = true ∧ issues .mmah (mkIssue 0 1 2 1 0 0) oneScribe = true := by decide

theorem wit_vectorUnit :
    issues .vfma (mkIssue 63 62 61 0 0 0) oneScribe = true ∧ issues .valu (mkIssue 63 62 61 0 0 0) oneScribe = true
      ∧ issues .valu (mkIssue 63 62 61 0 20 0) oneScribe = true ∧ issues .valu (mkIssue 63 62 61 0 (21 + 64 * 63) 0) oneScribe = true
      ∧ issues .valu (mkIssue 63 62 31 0 22 0) oneScribe = true ∧ issues .valu (mkIssue 63 7 0 0 (23 + 64 * 63) 0) oneScribe = true
      ∧ issues .vred (mkIssue 7 62 0 0 4 0) oneScribe = true ∧ issues .vred (mkIssue 63 62 0 0 0 0) oneScribe = true
      ∧ issues .vred (mkIssue 63 62 0 0 3 0) oneScribe = true ∧ issues .vexp (mkIssue 63 62 0 1 0 0) oneScribe = true
      ∧ issues .vrsq (mkIssue 63 62 0 0 0 0) oneScribe = true := by decide

theorem wit_selection :
    issues .topk (mkIssue 62 60 63 1 (64 + 128 * 7) 0) oneScribe = true ∧ issues .samp (mkIssue 31 62 29 1 64 0) oneScribe = true
      ∧ issues .dgst (mkIssue 31 63 0 0 0 0) oneScribe = true ∧ issues .fcpy (mkIssue 63 62 6 0 (15 + 16 * 7) 0) oneScribe = true
      ∧ ((oneScribe.scribe 0).arch.g_ 0 6).getLsbD 63 = false ∧ (((oneScribe.scribe 0).arch.a_ 0 15).extractLsb' 60 4).toNat = 0
      ∧ (((oneScribe.scribe 0).arch.a_ 0 15).extractLsb' 0 60).toNat % 64 = 0
      ∧ sramReadWaits (oneScribe.scribe 0) 0 131072 = false := by decide
theorem wit_selectionSamp :
    (samp true [(0#32, 7#32)] 0#64 0#32 0#32 0#32 = some 0x3F80000000000007#64)
      ∧ samp false [(0#32, 7#32)] 0#64 0#32 0xBF800000#32 0#32 = none := by decide

theorem wit_transfers :
    (∃ j, planState.job 0 = some j ∧ orderClash j 0 128 64 false = false ∧ orderClash j 0 128 64 true = false)
      ∧ Mem.wf (planState.scribe 0).sram = true ∧ Mem.wf (planState.part 0).scratch = true
      ∧ txWaits planState (planState.scribe 0) = false
      ∧ issues .dmar (mkIssue 0 1 3 0 64 0) planState = true ∧ issues .dmaw (mkIssue 0 1 3 0 64 0) planState = true
      ∧ issues .mimg (mkIssue 0 1 4 0 64 0) planState = true ∧ issues .dmar (mkIssue 0 1 3 0 1024 0) planState = true
      ∧ (((planState.scribe 0).arch.a_ 0 3).extractLsb' 60 4).toNat = 1
      ∧ (((planState.scribe 0).arch.a_ 0 4).extractLsb' 60 4).toNat = 3
      ∧ ((planState.scribe 0).arch.a_ 0 3).extractLsb' 48 12 = 0#12
      ∧ 128 + 64 ≤ (scratchSpace (planState.part 0)).2 ∧ (scratchSpace (planState.part 0)).2 < 128 + 1024
      ∧ 0 + 64 ≤ (imageSpace (planState.part 0)).2 ∧ (∃ im, (planState.part 0).curImage = some im)
      ∧ sramWriteWaits (planState.scribe 0) 64 64 = false ∧ sramReadWaits (planState.scribe 0) 64 64 = false :=
  ⟨⟨_, rfl, by decide⟩, by decide, by decide, by decide, by decide, by decide, by decide, by decide, by decide, by decide,
    by decide, by decide, by decide, by decide, ⟨_, rfl⟩, by decide, by decide⟩

theorem wit_kvPages :
    (∃ j, planState.job 0 = some j ∧ j.replaying = false) ∧ txWaits planState (planState.scribe 0) = false
      ∧ issues .kvap (mkIssue 0 1 5 1 (6 + 32 * 64) 0) planState = true ∧ issues .kvgt (mkIssue 0 1 5 0 64 0) planState = true
      ∧ (((planState.scribe 0).arch.a_ 0 5).extractLsb' 60 4).toNat = 2 ∧ ownPage (planState.part 0) 0 = true
      ∧ (∃ g, Tbl.get? (planState.part 0).pages 0 = some g ∧ (∀ h, g.owner ≠ .sealed h) ∧ g.posOf 0 ≠ .committed)
      ∧ (∃ g, Tbl.get? (committedPage.part 0).pages 0 = some g ∧ (∀ h, g.owner ≠ .sealed h) ∧ g.posOf 0 = .committed)
      ∧ issues .kvap (mkIssue 0 1 5 1 (6 + 32 * 64) 0) committedPage = true
      ∧ sramReadWaits (planState.scribe 0) 64 4096 = false ∧ sramWriteWaits (planState.scribe 0) 64 64 = false :=
  ⟨⟨_, rfl, rfl⟩, by decide, by decide, by decide, by decide, by decide, ⟨_, rfl, by simp, by decide⟩,
    ⟨_, rfl, by simp, by decide⟩, by decide, by decide, by decide⟩

theorem wit_transactions :
    (openTx.scribe 0).sends.any (fun x => x.id == 1) = false ∧ dataOwed openTx 0 0 1 = false
      ∧ (∃ pl, (openTx.part 0).plan = some pl ∧ ∃ c ∈ barCores openTx pl, (openTx.scribe c).atBar = false)
      ∧ issues .fence (mkIssue 0 0 0 0 3 0) openTx = true :=
  ⟨by decide, by decide, ⟨_, rfl, 0, by decide, by decide⟩, by decide⟩
theorem wit_transactionWaits : (waitingSend.scribe 0).sends.any (fun x => x.id == 1) = true := by decide

theorem wit_rendezvousIssue :
    issues .send (mkIssue 0 1 7 0 5 0) planState = true ∧ issues .mcast (mkIssue 0 1 6 0 5 0) meshState = true
      ∧ issues .recv (mkIssue 0 1 7 0 5 0) planState = true
      ∧ (((planState.scribe 0).arch.g_ 0 7).extractLsb' 40 24).toNat = 64 ∧ ((planState.scribe 0).arch.g_ 0 7).getLsbD 32 = false
      ∧ (((planState.scribe 0).arch.g_ 0 7).extractLsb' 0 10).toNat < planNcore planState 0
      ∧ (((planState.scribe 0).arch.g_ 0 7).extractLsb' 0 10).toNat ≠ (planState.scribe 0).pindex
      ∧ (planState.scribe 0).arrived = [] ∧ (((meshState.scribe 0).arch.g_ 0 6).extractLsb' 0 10).toNat < (meshState.scribe 0).pindex
      ∧ (meshState.scribe 0).pindex ≤ (((meshState.scribe 0).arch.g_ 0 6).extractLsb' 16 10).toNat
      ∧ (((meshState.scribe 0).arch.g_ 0 6).extractLsb' 16 10).toNat < planNcore meshState 0 := by decide
theorem wit_rendezvousEvents :
    (∃ j, waitingSend.job 0 = some j ∧ j.hold = none ∧ j.stepNo = 3)
      ∧ sentBy waitingSend 0 { peer := 0, device := none, tag := 0, len := 64, id := 1, stepNo := 3 } 1 = true
      ∧ (waitingSend.scribe 1).arrived = [] ∧ (waitingSend.scribe 1).recvs = [] ∧ (waitingSend.scribe 1).mode ≠ .stopped
      ∧ (matchedRecv.scribe 0).sends.map (fun q => (q.id, q.device, q.dests, q.all)) = [(1, none, [1], [1])]
      ∧ lcoreOf matchedRecv 0 1 = some 1
      ∧ (matchedRecv.scribe 1).recvs.map (fun r => (r.matched, r.sendId, r.peer, r.device)) = [(true, 1, 0, none)]
      ∧ (∃ r, (matchedRecv.scribe 1).recvs.find? (fun x => x.id == 1) = some r ∧ r.matched = true ∧ r.device = none)
      ∧ (∃ r, (dataRecv.scribe 1).recvs.find? (fun x => x.id == 1) = some r ∧ r.data = some [1#8])
      ∧ (∃ r, (postedRecv.scribe 1).recvs.find? (fun x => x.id == 1) = some r ∧ r.matched = false) :=
  ⟨⟨_, rfl, rfl, rfl⟩, by decide, rfl, rfl, by decide, by decide, by decide, by decide, ⟨_, rfl, by decide⟩, ⟨_, rfl, rfl⟩,
    ⟨_, rfl, rfl⟩⟩

theorem wit_contributions :
    (∃ j, ligState.job 0 = some j) ∧ issues .lig (mkIssue 0 2 6 0 4 0) ligState = true
      ∧ issues .lig (mkIssue 0 2 7 0 4 0) ligState = true ∧ issues .lig (mkIssue 0 2 8 0 4 0) ligState = true
      ∧ ((ligState.scribe 0).arch.g_ 0 7).getLsbD 30 = true ∧ planNcore ligState 0 ≤ (((ligState.scribe 0).arch.g_ 0 8).extractLsb' 0 10).toNat
      ∧ lcoreOf ligState 0 1 = some 1 ∧ runCore ligState 1 ≠ runCore ligState 0 ∧ relayMode ligState 1 = false
      ∧ issues .lig (mkIssue 0 2 0 0 4 0) ligState = true ∧ lcoreOf ligState 0 0 = some 0
      ∧ (ligState.pcore (runCore ligState 0)).kind ≠ .fenced ∧ (ligState.scribe 0).flits = [] :=
  ⟨⟨_, rfl⟩, by decide⟩

theorem wit_receipts :
    issues .lig (mkIssue 9 0 6 0 (4 + 2 ^ 17) 0) ligState = true ∧ ((ligState.scribe 0).arch.g_ 0 6).getLsbD 30 = false
      ∧ gathered (ligState.scribe 0) { tag := 4, lfmt := false, dest := 9, expected := 0, index := 2, failed := false } 3 = none
      ∧ issues .lig (mkIssue 9 0 6 0 (4 + 2 ^ 17 + 2 ^ 16) 0) ligState = true
      ∧ issues .lig (mkIssue 9 0 6 0 (4 + 2 ^ 17) 0) gatheredState = true
      ∧ (((gatheredState.scribe 0).arch.g_ 0 6).extractLsb' 16 10).toNat = 1
      ∧ (∀ f < 4, gathered (gatheredState.scribe 0) { tag := 4, lfmt := false, dest := 9, expected := 1, index := 2, failed := false } f = some (oneFlit f))
      ∧ (∀ f < 4, (oneFlit f).lanes.length = 16 ∧ (oneFlit f).lanes.foldl (· + ·) 0#32 = (oneFlit f).lchk)
      ∧ (∃ r, (waitingReceipt.scribe 0).receipts.find?
          (fun q => q.tag == baseTag 6 && !tagDone (waitingReceipt.scribe 0) q (6 % 4)) = some r) ∧ (waitingReceipt.scribe 0).flits = []
      ∧ (∃ f, (Tbl.getD heldFlit.slotsLig 5 []).find? (fun x => x.tag == 4 && x.stepTag == 3) = some f) :=
  ⟨by decide, by decide, by decide, by decide, by decide, by decide, by decide, by decide, ⟨_, rfl⟩, rfl, ⟨_, rfl⟩⟩

theorem wit_stepEnd :
    issues .wstrk (mkIssue 0 0 0 0 0 0) ligState = true ∧ issues .halt (mkIssue 0 0 0 0 0 0) ligState = true
      ∧ (ligState.scribe 0).txs = [] ∧ arraysBusy ligState 0 0xFFFFFFFF = false ∧ (openTx.scribe 0).txs ≠ []
      ∧ issues .bar (mkIssue 0 0 0 0 0 0) ligState = true
      ∧ (∃ pl, (ligState.part 0).plan = some pl ∧ 0 ∈ barCores ligState pl
          ∧ ∃ c ∈ barCores ligState pl, c ≠ 0 ∧ (ligState.scribe c).atBar = false)
      ∧ (∃ pl, (lastAtBar.part 0).plan = some pl ∧ 0 ∈ barCores lastAtBar pl
          ∧ (∀ c ∈ barCores lastAtBar pl, c ≠ 0 → (lastAtBar.scribe c).atBar = true)
          ∧ ∀ c ∈ barCores lastAtBar pl, (lastAtBar.scribe c).txs = []) :=
  ⟨by decide, by decide, rfl, by decide, by decide, by decide, ⟨_, rfl, by decide, 1, by decide, by decide⟩,
    ⟨_, rfl, by decide⟩⟩

theorem wit_servingInstructions :
    (∃ j, planState.job 0 = some j ∧ j.replaying = false ∧ j.hold = none ∧ j.suspects = [] ∧ j.fault = none
        ∧ listed j 6 = true ∧ listed j 1 = false ∧ (stagedEnds j 6).length < 16 ∧ (∀ k ∈ stagedEnds j 6, k = 0)
        ∧ j.reqList[0]? = some listEntry ∧ j.reqList[6]? = none ∧ j.items = [])
      ∧ issues .reqn (mkIssue 29 6 0 1 0 0) planState = true ∧ issues .reqn (mkIssue 29 0 0 0 0 0) planState = true
      ∧ issues .reqn (mkIssue 29 6 0 0 0 0) planState = true ∧ issues .toko (mkIssue 0 6 7 0 2 0) planState = true
      ∧ issues .toko (mkIssue 0 7 7 0 2 0) planState = true ∧ isEntry planState 0 = true
      ∧ issues .canq (mkIssue 7 6 0 0 0 0) planState = true ∧ issues .spec (mkIssue 0 6 0 0 0 0) planState = true
      ∧ issues .spec (mkIssue 0 6 0 0 1 0) planState = true ∧ issues .blot (mkIssue 0 1 6 0 (127 + 128) 0) planState = true
      ∧ issues .blot (mkIssue 0 1 6 1 (128 * 128) 0) planState = true ∧ sramReadWaits (planState.scribe 0) 64 64 = false
      ∧ sramWriteWaits (planState.scribe 0) 64 8192 = false ∧ issues .susp (mkIssue 0 6 0 1 255 0) planState = true :=
  ⟨⟨_, rfl, by decide⟩, by decide⟩

theorem wit_meshFaults :
    (upCore.pcore 5).portUp.testBit 0 = true ∧ (upCore.pcore 5).rtrUp = true ∧ (upCore.pcore 7).portUp.testBit 0 = false
      ∧ (upCore.pcore 5).kind = .spare
      ∧ ({ upCore with mesh := { Mesh.reset with rtPending := true } } : State).mesh.lostFor = [] ∧ upCore.slotsLig = [] ∧ upCore.vcBuf = []
      ∧ (∃ x, (Tbl.getD ({ upCore with slotsLig := [(5, [{ oneFlit 0 with lfmt := true }])] } : State).slotsLig 5 []).find?
          (fun f => f.lfmt && f.tag == 4 && f.stepTag == 3) = some x) :=
  ⟨by decide, by decide, by decide, by decide, by decide, by decide, by decide, ⟨_, rfl⟩⟩
theorem wit_flits :
    linkUp upCore 5 0 = true ∧ linkUp upCore 5 2 = true ∧ linkUp upCore 5 4 = true ∧ aFlit.dest ≠ 5
      ∧ readyFor upCore 5 2 memFlit = false ∧ readyFor upCore 5 0 memFlit = true ∧ memFlit.dest ≠ 5 ∧ leavesMesh upCore 5 memFlit = false
      ∧ hasCredit upCore 5 0 memFlit.vc = true
      ∧ hasCredit { upCore with vcBuf := [(bufKey 5 0 0, List.replicate 4 memFlit)] } 5 0 memFlit.vc = false := by decide +kernel
theorem wit_flits_crc : flitCrc memFlit ≠ 0#16 := by
  rw [memFlit_crc]
  decide
theorem wit_flits_ligature :
    meshNeighbour 5 2 = some 6 ∧ routeOf ligHeld 6 4 = some (oppositePort 2) ∧ Tbl.getD ligHeld.slotsLig 5 [] = []
      ∧ ∃ x, Tbl.getD ligHeld.slotsLig 6 [] = [x] ∧ onWire aFlit x = true ∧ x.heading = 4 ∧ x.order = none ∧ x.dest ≠ 5
        ∧ relayMode ligHeld x.lcore = false :=
  ⟨by decide +kernel, by decide +kernel, by decide +kernel, _, rfl, by decide +kernel⟩

theorem wit_fenceOrders :
    canWrite meshOrders 0 pgMesh = true ∧ armed meshOrders 0 pgMesh = true ∧ meshOrders.mesh.fenceBusy = false
      ∧ (meshOrders.pcore 5).kind = .active ∧ runsOn meshOrders 5 = [(meshOrders.pcore 5).lcore]
      ∧ (meshOrders.pcore 9).kind ≠ .active := by decide
theorem wit_fenceOrders_spare : migrationSpare meshOrders 5 = none ∧ chooseSpare meshOrders 5 = some 6 := by decide +kernel
theorem wit_fenceOrders_noSpare : chooseSpare (meshOrders.setPcore 6 { PCore.reset with kind := .fenced }) 5 = none := by decide +kernel
theorem wit_fenceOrders_busy : ({ meshOrders with mesh := { Mesh.reset with fenceBusy := true } } : State).mesh.fenceBusy = true := rfl
theorem wit_fenceOrders_unarmed : armed liveState 0 pgMesh = false ∧ canWrite liveState 0 pgMesh = true := by decide

theorem wit_strokeBoundary :
    strokesRun runState = true ∧ runState.shut = false ∧ runState.bring.lockStop = false ∧ runState.stroke.stopPend = false := by decide
theorem wit_strokeBoundary_stop :
    let s : State := { runState with stroke := { runState.stroke with stopPend := true } }
    strokesRun s = true ∧ s.stroke.stopPend = true ∧ (∀ x ∈ s.parts, x.2.plan = none) := by decide
theorem wit_strokeBoundary_lockStop :
    let s : State := { runState with bring := { runState.bring with lockStop := true } }
    strokesRun s = true ∧ s.shut = false ∧ s.bring.lockStop = true := by decide
theorem wit_strokeBoundary_stopped : strokesRun State.reset = false := by decide

theorem wit_statusSequence :
    strokesRun jobState = true ∧ jobState.shut = false ∧ jobState.stroke.count ≤ statusAt jobState
      ∧ jobState.stroke.count ≤ decisionAt jobState ∧ jobState.job 0 = some aJob ∧ aJob.inStep = true
      ∧ decides jobState 0 aJob = true ∧ aJob.decision = none := by decide
theorem wit_statusSequence_past :
    statusAt { jobState with stroke := { jobState.stroke with count := 39999 } } < 39999
      ∧ decisionAt { jobState with stroke := { jobState.stroke with count := 39999 } } < 39999 := by decide
theorem wit_statusMessage :
    wideState.job 0 = some wideJob ∧ multiDevice wideJob = true ∧ notEntry wideState 0 = false ∧ 1 < wideJob.block.length
      ∧ strokesRun wideState = true ∧ (70000 : Nat) % 65536 = wideState.stroke.number % 65536 ∧ wideJob.inStep = true
      ∧ (70001 : Nat) % 65536 ≠ wideState.stroke.number % 65536 := by decide
/-- A job of two devices that waits to hear of the other one, which has spoken. -/
def waitingJob : Job := { wideJob with inStep := false, heard := [0, 1] }
theorem wit_waitingJob :
    let s : State := wideState.setPart 0 { wideState.part 0 with job := some waitingJob }
    s.job 0 = some waitingJob ∧ waitingJob.inStep = false ∧ multiDevice waitingJob = true ∧ waitingJob.joined = false
      ∧ decides s 0 waitingJob = true ∧ allHeard waitingJob = true ∧ strokesRun s = true ∧ notEntry s 0 = false
      ∧ allHeard { waitingJob with heard := [0] } = false := by decide
theorem wit_decisionMessage :
    let s : State := { wideState with
      parts := [(0, { Part.reset with state := .ready, plan := some { smallPlan with entry := false }, job := some wideJob })] }
    s.job 0 = some wideJob ∧ decides s 0 wideJob = false ∧ decisionFits s 70000 = true ∧ decisionFits s 70001 = false ∧ decides s 0 waitingJob = false
      ∧ wideJob.decision = none ∧ curStep wideJob = 9 := by decide

theorem wit_jobStart :
    let s : State := jobWith { aJob with started := false, inStep := false }
    atBoundary s = true ∧ smallPlan.startAt ≤ s.stroke.number
      ∧ nothingHolds s 0 { aJob with started := true, inStep := false } := by decide
theorem wit_spanAbandon :
    let j : Job := { aJob with span := 8 }
    atBoundary (jobWith j) = true ∧ maxSpan (jobWith j) 0 ≤ j.span ∧ nothingHolds (jobWith j) 0 j ∧ j.abandoned = false ∧ j.inStep = true
      ∧ j.hold = none ∧ j.inserting = false ∧ commitHeld j = false := by decide
theorem wit_holdLimit :
    let j : Job := { aJob with inStep := false, hold := some heldStep }
    (jobWith j).job 0 = some j ∧ atBoundary (jobWith j) = true ∧ 4 ≤ heldStep.age ∧ heldStep.slots ≠ [] ∧ nothingHolds (jobWith j) 0 j := by decide
theorem wit_autoPartial :
    let j : Job := { aJob with strRun := 2 }
    let k : Job := { aJob with auto := true, cleanRun := 64 }
    betweenSteps (jobWith j) j = true ∧ policyPartial (jobWith j) 0 = false
      ∧ ((jobWith j).reg pgStroke (0x100 + 0x20 * 0)).getLsbD 2 = true ∧ 2 ≤ j.strRun
      ∧ betweenSteps (jobWith k) k = true ∧ relax (jobWith k) 0 ≤ k.cleanRun ∧ policyPartial (jobWith k) 0 = false := by decide
theorem wit_periodSwitch :
    let s : State := { runState with stroke := { runState.stroke with pend := some (50000, 0#32, 69999) } }
    strokesRun s = true ∧ s.stroke.count = 0 ∧ 69999 ≤ s.stroke.number := by decide

theorem wit_synchronisation :
    let at_ (x : StrokeState) : State := { runState with stroke := { runState.stroke with state := x } }
    (at_ .stopped).stroke.state = .stopped ∧ (at_ .waitEpoch).bring.lockStop = false ∧ (at_ .waitEpoch).stroke.stopPend = false
      ∧ runState.stroke.state = .locked ∧ (at_ .holdover).stroke.state = .holdover
      ∧ runState.stroke.resync = false ∧ runState.stroke.number % 65536 ≠ 0
      ∧ ({ runState.stroke with number := 131072, resync := true } : Stroke).number % 65536 = 0 := by decide
theorem wit_syncLost :
    let s : State := { runState with stroke := { runState.stroke with confirmed := false, missed := 3 } }
    s.stroke.state = .locked ∧ s.stroke.confirmed = false ∧ 3 ≤ s.stroke.missed := by decide

theorem wit_strokeOrders :
    canWrite runState 0 pgStroke = true ∧ canWrite runState 34 pgStroke = false
      ∧ runState.stroke.number + 2 ≤ ({ runState with regs := [(0x2003048, 70002#32)] } : State).pair pgStroke 0x048 0x04C
      ∧ runState.pair pgStroke 0x048 0x04C < runState.stroke.number + 2 := by decide

theorem wit_orders :
    canWrite serveState 1 (pgReq 0) = true ∧ canWrite serveState 2 (pgReq 0) = false ∧ canWrite serveState 0 (pgReq 0) = true
      ∧ notEntry serveState 0 = false ∧ (serveState.part 0).orders.length < 1024
      ∧ liveMatch serveState 0 6 3 = true ∧ (serveState.slot 6).cancel = none
      ∧ liveMatch serveState 0 7 3 = false ∧ ownSlot (serveState.part 0) 7 = true ∧ (serveState.part 0).bme = false
      ∧ (serveState.part 0).cqQueue.length < 4096 := by decide
theorem wit_orders_cancelled :
    let s : State := serveState.setSlot 6 { serveState.slot 6 with cancel := some (70000, 0) }
    liveMatch s 0 6 3 = true ∧ (s.slot 6).cancel ≠ none ∧ (s.part 0).cqQueue.length < 4096 := by decide
theorem wit_orders_full :
    let s : State := serveState.setPart 0 { serveState.part 0 with orders := List.replicate 1024 (decodeOrder serveState 2 0#64) }
    1024 ≤ (s.part 0).orders.length := by decide +kernel

theorem wit_intake : serveState.job 0 ≠ none ∧ awaitsList serveState 0 = true ∧ notEntry serveState 0 = false := by decide
theorem wit_intake_other : awaitsList jobState 0 = false ∧ jobState.job 0 = some aJob := by decide
theorem wit_takes : takes openState 0 = true ∧ takes serveState 0 = false := by decide
theorem wit_descriptor : (decodeDesc goodDesc).withdraw = 0 ∧ refusal openState 0 (decodeDesc goodDesc) = 0 := by decide +kernel
theorem wit_descriptor_refused : (decodeDesc []).withdraw = 0 ∧ refusal openState 0 (decodeDesc []) = 1 := by decide +kernel
theorem wit_descriptor_withdrawn : (decodeDesc [1#8, 1#8]).withdraw ≠ 0 := by decide +kernel

theorem wit_parking :
    (parkState .parking 0).HostOk ∧ ((parkState .parking 0).slot 6).state = .parking
      ∧ hostOpen ((parkState .parking 0).part ((parkState .parking 0).slot 6).part) = true
      ∧ parkedKeys (parkState .parking 0) 0 6 = [(0, [(3, PosState.committed)])]
      ∧ Tbl.get? ((parkState .parking 0).slot 6).kvMap 0 = some 2 := by decide +kernel
theorem wit_parked : ((parkState .parked 0).slot 6).expired = false ∧ ((parkState .parked 0).part 0).orders = [] := by decide +kernel
theorem wit_sealed :
    let h : Handle := { Handle.reset with state := .sealed, ttl := 5 }
    ((runState.setHandle 9 h).handle 9) = h ∧ h.users = 0 ∧ h.ttl ≠ 0 ∧ h.expired = false := by decide
theorem wit_cqCons :
    let c : Completion := { tag := 1#64, slot := 6, gen := 3, kind := 5, code := 1, value := 0#64, stroke := 1 }
    let s := openState.setPart 0 { openState.part 0 with cqQueue := [c] }
    canWrite s 1 (pgReq 0) = true ∧ (s.part 0).cqQueue = [c] ∧ hostOpen (s.part 0) = true
      ∧ cqRoom (s.setReg (pgReq 0) 0x06C 0#32) 0 = true := by decide +kernel

theorem wit_sampleCompare :
    let d : Nat × List W64 := (10, [12#64])
    (sampleState none).integ.checks.find? (fun x => x.id == 5) = some (aCheck none) ∧ (aCheck none).traces.map (·.digest) = [11#64]
      ∧ ((sampleState none).pcore 7).taintOpen = none ∧ (sampleState none).integ.checks.find? (fun x => x.id == 6) = none
      ∧ (sampleState (some d)).integ.checks.find? (fun x => x.id == 5) = some (aCheck (some d)) ∧ (10 : Nat) ≠ (aCheck none).pcore
      ∧ ((sampleState (some d)).pcore 10).kind = .spare ∧ (sampleState none).integ.taints.length < 16 := by decide
theorem wit_sampleCompare_checkers :
    let more := (sampleState none).setPcore 11 { PCore.reset with kind := .spare }
    (freeCheckers (sampleState none) 0).filter (fun c => c != 9) = [10] ∧ (freeCheckers (sampleState none) 0).filter (fun c => c != 10) = []
      ∧ (freeCheckers more 0).filter (fun c => c != 10) = [11] ∧ freeCheckers State.reset 0 = [] := by decide +kernel
theorem wit_taintReport :
    (taintState 8).integ.taints = [aTaint] ∧ taintLen (taintState 8) = 8192 ∧ (taintState 8).pf.bme = true
      ∧ 64 ≤ taintRoom (taintState 8) ∧ 64 + 64 ≤ taintLen (taintState 8)
      ∧ taintRoom { (taintState 8) with regs := (taintState 8).regs ++ [(0x2033080, 0xFFFFE010#32)] } < 64 := by decide +kernel
theorem wit_thaw : canWrite runState 0 pgInteg = true ∧ canWrite runState 33 pgInteg = false := by decide

theorem wit_proofPart :
    let r := aProof none false
    let s := proofState r
    proofEn s = true ∧ provable s 9 = true ∧ inReplay s 9 = false ∧ (∀ k ∈ r.left, hasProof s 9 k = true)
      ∧ r.left.find? (partRuns s r) = some 32 ∧ r.busy = none ∧ r.failed = [] := by decide +kernel
theorem wit_proofPart_prover : proverFor (proofState (aProof none false)) 32 9 [9] = some 10 := by decide +kernel
theorem wit_proofPart_half :
    let s := proofState (aProof (some 32) false)
    provable s 10 = true ∧ idleCore s 10 = true ∧ fitsStroke s 10 3072 = true := by decide +kernel
theorem wit_proofPart_disabled :
    let s : State := { State.reset with sec := { Sec.reset with lcState := 0 }, regs := [(0x2033044, 0#32)] }
    proofEn s = false := by decide +kernel
theorem wit_proofJudge :
    let r := aProof (some 32) true
    let s := proofState r
    s.integ.proof = some r ∧ partComplete r 32 = true ∧ partComplete { r with half := false } 32 = false
      ∧ partPasses s r 32 5#64 5#64 = true ∧ partPasses s r 32 5#64 6#64 = false ∧ r.failed = []
      ∧ ({ r with left := [31, 32] } : ProofRun).left.erase 32 ≠ [] := by decide +kernel
theorem wit_proofJudge_again :
    let r : ProofRun := { aProof (some 3) true with failed := [3], left := [3, 32], result := some ([], false, 400) }
    partComplete r 3 = true ∧ partPasses (proofState r) r 3 0#64 0#64 = false ∧ ((proofState r).pcore 9).kind = .spare ∧ r.left.erase 3 ≠ []
      ∧ (proofState r).integ.taints.length < 16 := by decide +kernel
theorem wit_proofDeadline :
    let r := aProof none false
    let s := proofState r
    r.left ≠ [] ∧ proofDue s r ≤ s.stroke.number ∧ r.subst = none ∧ r.forced < 4 ∧ atBoundary s = true ∧ proofEn s = true
      ∧ inReplay s r.pcore = false ∧ proverFor s (proofPart s r.pcore) r.pcore [r.pcore] = some 10
      ∧ proofDue (proofState { r with since := 69999 }) { r with since := 69999 } > 70000 := by decide +kernel
theorem wit_proofDeadline_noProver :
    let r := aProof none false
    let s := (proofState r).setPcore 10 { PCore.reset with kind := .fenced }
    proverFor s (proofPart s r.pcore) r.pcore [r.pcore] = none := by decide +kernel
theorem wit_proofNext : canWrite (proofState (aProof none false)) 0 pgInteg = true ∧ ((proofState (aProof none false)).pcore 7).kind ≠ .fenced := by
  decide +kernel

theorem wit_weightOrders :
    canWrite weightState 0 pgWeight = true ∧ armed weightState 0 pgWeight = true ∧ partExists weightState 0 = true
      ∧ weightState.weight.busy = none ∧ (weightState.part 0).nextImage = some smallImage ∧ (weightState.part 0).plan = none
      ∧ partChanging (weightState.part 0) = false ∧ slotBeingRead weightState 0 true = false
      ∧ slotBeingRead weightState 0 false = false ∧ changeUsesNext (weightState.part 0) = false
      ∧ armed liveState 0 pgWeight = false ∧ canWrite liveState 0 pgWeight = true ∧ partExists liveState 0 = false := by decide +kernel
theorem wit_weightOrders_roll :
    let s := weightState.setPart 0 { weightState.part 0 with plan := some smallPlan, curImage := some smallImage }
    partExists s 0 = true ∧ (s.part 0).plan ≠ none ∧ partChanging (s.part 0) = false
      ∧ (s.part 0).curImage.map (fun c => (c.ntile, c.dir)) = some (smallImage.ntile, smallImage.dir) := by decide +kernel
theorem wit_weightOrders_busy :
    ({ weightState with weight := { Weight.reset with busy := some (0, false, 4) } } : State).weight.busy ≠ none := by decide

theorem wit_imageDone :
    (loadState false).weight.busy = some (0, false, 4) ∧ (loadState true).weight.busy = some (0, true, 4)
      ∧ partExists (loadState false) 0 = true ∧ (loadState false).weight.abandoned = false
      ∧ imgCheck [] ((4 * 1024 + 4095) / 4096 * 4096) (some 1) = 1 := by decide +kernel
theorem wit_imageDone_gone : partExists { loadState false with parts := [] } 0 = false := by decide
theorem wit_writeSlotStart :
    chooseProg progState = some (aProg, false) ∧ progImage progState aProg = some { smallImage with ntile := 1 }
      ∧ chooseProg State.reset = none := by decide +kernel
theorem wit_writeSlotDone :
    let s : State := { progState with weight := { Weight.reset with queue := [{ aProg with started := true }] } }
    s.weight.queue.find? (fun y => y.started && progKey y == 288) = some { aProg with started := true }
      ∧ (s.pcore (288 / 32)).kind = .spare ∧ (s.part 0).change = .none := by decide
theorem wit_arrayVerify :
    let s := (progState.setArray 288 { ArrayUnit.reset with resState := .resident, edition := 1 }).setPart 0
      { progState.part 0 with edition := 1 }
    let t : State := { s with weight := Weight.reset }
    (t.array 288).resState = .resident ∧ (t.part 0).curImage ≠ none ∧ (t.array 288).edition = (t.part 0).edition
      ∧ (t.array 288).recOk = true ∧ (∀ q ∈ t.weight.queue, progKey q ≠ 288) := by decide +kernel

theorem wit_editionSwitch :
    ((changeState .offline).part 0).nextImage = some smallImage ∧ ((changeState .offline).part 0).change = .offline
      ∧ smallImage.lost = [] ∧ (∀ q ∈ (changeState .offline).weight.queue, offlineWork 0 q = false)
      ∧ ((changeState (.rollPending 70000)).part 0).change = .rollPending 70000
      ∧ stepCommitted (changeState (.rollPending 70000)) 0 = true ∧ adapterNamed (changeState (.rollPending 70000)) 0 = false
      ∧ switchDecided (changeState (.rollPending 70000)) 0 = true := by decide +kernel
theorem wit_editionSwitch_waits : offlineWork 0 { aProg with why := .offline } = true := by decide
theorem wit_editionSwitch_lost : ({ smallImage with lost := [0] } : Image).lost ≠ [] := by decide
theorem wit_editionSwitch_adapter :
    let s := (changeState (.rollPending 70000)).setSlot 6 { Slot.reset with state := .decode, desc := { Desc.zero with flags := 2 } }
    adapterNamed s 0 = true ∧ stepCommitted s 0 = true ∧ (s.part 0).rollWait = false := by decide +kernel

theorem wit_calOrder :
    canWrite calState 0 pgCal = true ∧ armed calState 0 pgCal = true ∧ calState.cal.busy = false ∧ (calState.pcore 9).kind = .active
      ∧ calReady calState 288 = true ∧ (9 : Nat) ≤ 1151 ∧ armed runState 0 pgCal = false ∧ canWrite runState 0 pgCal = true
      ∧ (0x80000009#32).extractLsb' 16 2 = 0#2 := by decide +kernel
theorem wit_calibration :
    let s : State := { calState with cal := { Cal.reset with busy := true, left := [288], evals := 5 } }
    s.cal.busy = true ∧ s.cal.left = [288] ∧ s.cal.evals < 128 ∧ idleArray s 288 = true
      ∧ tileLost s (s.array 288).resPart (some (s.array 288).tile) = false ∧ calReady s 288 = true := by decide +kernel
theorem wit_calibrationDone (x : List Int) : trimsAgree x x = true := by simp [trimsAgree]
theorem wit_calibrationDone_differ : trimsAgree (List.replicate 1054 0) (9 :: List.replicate 1053 0) = false := by
  rw [trimsAgree, List.all_eq_false]
  exact ⟨0, by simp, by decide +kernel⟩
theorem wit_calibrationDone_fit :
    trimsFit (List.replicate 1054 0) = true ∧ trimsFit (List.replicate 1054 200) = false
      ∧ (List.replicate 1054 (0 : Int)).length = 1054 ∧ (9 :: List.replicate 1053 (0 : Int)).length = 1054 := by decide +kernel
theorem wit_trimTraining :
    (planProjs (trimState.part 0))[0]? = some aProj ∧ (trimState.trim 0 0).en = true
      ∧ (4 : Nat) ≤ min 16 (trimState.trim 0 0).rankMax ∧ (planProjs (trimState.part 0))[1]? = none := by decide +kernel

theorem wit_adapters :
    canWrite serveState 1 (pgAdapt 0) = true ∧ canWrite serveState 2 (pgAdapt 0) = false ∧ (serveState.part 0).adBusy = none
      ∧ ((adaptState 1).part 0).adBusy = some (1, 3, 4096) ∧ adapterAt ((adaptState 1).part 0) 3 = none
      ∧ ((adaptState 2).part 0).adBusy = some (2, 3, 4096) ∧ adapterUsed (adaptState 2) 0 3 = false
      ∧ aiCrcOk [] = false := by decide +kernel
theorem wit_adapters_taken :
    let a : Adapter := { image := [], edition := 1, visible := true, offset := 0, index := none, gone := false }
    adapterAt { (adaptState 1).part 0 with adapters := [(3, a)] } 3 ≠ none := by decide
theorem wit_adapters_load :
    aiCrcOk goodAdapter = true ∧ aiForm goodAdapter = true ∧ numAt goodAdapter 8 8 = 1 ∧ ((adaptState 1).part 0).plan = none
      ∧ numAt goodAdapter 8 8 = ((adaptState 1).part 0).edition := by decide +kernel
theorem wit_adapters_used :
    let s := (adaptState 2).setSlot 6 { Slot.reset with
      state := .decode, desc := { Desc.zero with kind := 1, flags := 2, adapter := 3 } }
    adapterUsed s 0 3 = true ∧ (s.part 0).adBusy = some (2, 3, 4096) := by decide +kernel

theorem wit_planOrders :
    canWrite weightState 1 (pgPlan 0) = true ∧ canWrite weightState 2 (pgPlan 0) = false ∧ (weightState.part 0).pstat.busy = 0
      ∧ (weightState.part 0).plan = none ∧ slotsOf weightState 0 = [] ∧ canWrite jobState 1 (pgPlan 0) = true
      ∧ (jobState.part 0).plan ≠ none ∧ (jobState.part 0).job = some aJob ∧ slotsOf jobState 0 = []
      ∧ canWrite serveState 1 (pgPlan 0) = true ∧ slotsOf serveState 0 ≠ [] ∧ (serveState.part 0).pstat.busy = 0 := by decide +kernel
theorem wit_planLoadDone :
    (planLoading.part 0).pstat.busy = 1 ∧ piForm [] (planLoading.part 0).pstat.len = false := by decide +kernel
theorem wit_planLoadDone_form : piForm goodPlan 0x900 = true := by decide +kernel
theorem wit_planLoadDone_words : piEncoding goodPlan = true := by decide +kernel
theorem wit_planLoadDone_checks : planChecks planReady 0 goodPlan = (0, some 0) := by decide +kernel
theorem wit_planLoadDone_ready :
    (planReady.part 0).pstat.busy = 1 ∧ (planReady.part 0).pstat.len = 0x900 ∧ (planReady.part 0).adapters = []
      ∧ ownCores planReady 0 = [0] := by decide +kernel
theorem wit_planLoadDone_refused :
    planChecks (planReady.setPart 0 { planReady.part 0 with edition := 2 }) 0 goodPlan = (6, none) := by decide +kernel

theorem wit_linkBlock :
    ((linkState .up).port 2).state = .up ∧ (linkState .up).pins.linkIdle = false ∧ ((linkState .up).port 2).rxSeq = 7
      ∧ blockSeq blockNext = 8 ∧ blockNak blockNext = false ∧ blockNak blockNaks = true ∧ blockSeq blockNaks = 8
      ∧ blockAck blockNaks = ((linkState .up).port 2).ackSeq ∧ blockSeq blockSkips = 9 ∧ ((linkState .up).port 3).state ≠ .up
      ∧ canWrite (linkState .down) 0 (pgLink 2) = true ∧ canWrite (linkState .down) 5 (pgLink 2) = false
      ∧ ((linkState .down).port 2).state = .down ∧ ((linkState .disabled).port 2).state = .disabled := by decide +kernel
theorem wit_linkBlock_replays :
    (((linkState .up).setPort 2 { (linkState .up).port 2 with replays := 3 }).port 2).replays = 3 := by decide
theorem wit_training :
    ((linkState .training).port 2).state = .training
      ∧ trainingFits (linkState .training) 2 { coord := 256 * 3, profile := 0, racks := 1, peerPort := 10, buddy := none } = true
      ∧ trainingFits (linkState .training) 2 { coord := 5, profile := 0, racks := 1, peerPort := 10, buddy := none } = false := by
  decide +kernel

theorem wit_announcement :
    (4 : Nat) ∉ (linkState .up).link.announced
      ∧ (4 : Nat) ∈ ({ linkState .up with link := { Link.reset with announced := [4] } } : State).link.announced := by decide
theorem wit_coordWrite :
    sidebandReach (linkState .down) (pgLink 0) = true ∧ (∀ n < 12, ((linkState .down).port n).state = .down)
      ∧ ((0x00010000#32).extractLsb' 16 7).toNat = 1 ∧ spansX (linkState .down) = false := by decide +kernel
theorem wit_growth :
    let s : State := { runState with link := { Link.reset with growArm := true, growAt := 70000, racksNext := 2 } }
    s.link.growArm = true ∧ s.link.growAt ≤ s.stroke.number := by decide

theorem wit_heartbeats :
    (pairState .solo).pins.linkIdle = false ∧ Tbl.get? (pairState .solo).parts 0 ≠ none ∧ buddyUp (pairState .solo) = true
      ∧ torusUp (pairState .solo) = false ∧ ((pairState .solo).part 0).state ≠ .none
      ∧ 10 * pairGrace (pairState .solo) 0 ≤ ((pairState .solo).part 0).pair.hbAge
      ∧ ((pairState .sync).part 0).pair.state = .sync ∧ buddyUp (pairState .sync) = true := by decide +kernel
theorem wit_suspended :
    let s : State := { pairState .solo with
      ports := [(0, { Port.reset with state := .up, dir := 0 })], link := { Link.reset with profile := 3 },
      regs := [(0x202012C + 2 ^ 32, 0x101#32)] }
    let q : BuddyTell := { ok := true, edition := (s.part 0).edition, digest := smallPlan.digest, extents := (1, 1, 1), pos := aJob.pos,
                           entry := smallPlan.entry, pages := 0 }
    torusUp s = true ∧ pairReady (setPair s 0 (fun y => { y with peer := some q })) 0 = true := by decide +kernel
theorem wit_mirrorData :
    let m : MirrorMsg := .ended 3
    let r := ((pairState .paired).part 0).pair
    mirrorPages r + (heldPages { r with held := r.held ++ [m] }).length ≤ 4096 * mirrorGib (pairState .paired) 0
      ∧ pairedNow (pairState .paired) 0 = true ∧ (pairState .paired).job 0 = some aJob := by decide +kernel
theorem wit_mirrorData_full :
    let m : MirrorMsg := .kv 3 0 0 []
    let r := ((pairState .paired).part 0).pair
    4096 * mirrorGib { pairState .paired with regs := [(0x202012C + 2 ^ 32, 0#32)] } 0
      < mirrorPages r + (heldPages { r with held := r.held ++ [m] }).length := by decide +kernel
theorem wit_jobControl :
    let s := listedState_
    s.job 0 = some { wideJob with replaying := true } ∧ notEntry s 0 = true ∧ ownSlot (s.part 0) 6 = true
      ∧ (s.slot 6).state ≠ .free ∧ (s.slot 6).handle = none ∧ (s.slot 6).cancel = none
      ∧ multiDevice { wideJob with replaying := true } = true ∧ State.reset.job 0 = none := by decide +kernel

theorem wit_vfFlr :
    vfOn vfState 0 = true ∧ (vfState.part 0).rst = none ∧ (vfState.part 0).state = .ready ∧ (vfState.part 0).plan = some smallPlan
      ∧ (vfState.part 0).job = some aJob ∧ vfOn vfState 3 = false ∧ vfOn vfState 1 = true ∧ (vfState.part 1).state = .none := by decide
theorem wit_pfFlr :
    (bringBusy 3 .boot).bring.busy = true ∧ (secState 1 [aSecReq false none]).sec.reqs.any (fun r => !r.mc) = true
      ∧ fwupRuns { fwState 2 with pf := vfState.pf } 0 = true ∧ vfOn { fwState 2 with pf := vfState.pf } 0 = true
      ∧ ((fwState 2).part 0).rst = none ∧ ((fwState 2).part 0).state = .ready := by decide
theorem wit_flrComplete :
    let r : ResetRec := { kind := 1, discard := false, keepVf := false, bmeAtPoint := true, termsDone := true }
    let s := vfState.setPart 0 { vfState.part 0 with state := .resetting, rst := some r }
    strokesRun s = true ∧ (s.part 0).rst = some r ∧ vfOn s 0 = true := by decide
theorem wit_busMasterEnable :
    (vfState.part 0).bme = true ∧ (vfState.part 0).plan ≠ none
      ∧ ({ vfState.part 0 with bme := false, heldRecords := [(64, [1#8])] } : Part).resetting = false := by decide
theorem wit_messages :
    let s : State := { vfState with pf := { vfState.pf with bme := true, msixPend := [(3, true)] } }
    let x : Part := { vfState.part 0 with modCount := [(5, 2)], msixMask := [(5, false)] }
    Tbl.getD s.pf.msixPend 3 false = true ∧ Tbl.getD s.pf.msixPend 4 false = false ∧ s.pf.bme = true
      ∧ Tbl.getD x.modCount 5 0 ≠ 0 ∧ x.resetting = false ∧ x.bme = true ∧ Tbl.getD x.msixMask 5 true = false
      ∧ Tbl.getD Part.reset.msixMask 5 true = true ∧ canWrite vfState 1 (pgFunc 0) = true ∧ canWrite vfState 2 (pgFunc 0) = false := by
  decide

theorem wit_partOrders :
    canWrite partState 0 pgPart = true ∧ armed partState 0 pgPart = true ∧ (partState.part 0).order = none ∧ (partState.part 0).rst = none
      ∧ (partState.part 0).state = .ready ∧ (partState.part 0).plan = none ∧ slotsOf partState 0 = []
      ∧ partChanging (partState.part 0) = false ∧ partState.stroke.state ≠ .stopped ∧ partState.field pgPart 0x040 0 5 = 0
      ∧ armed liveState 0 pgPart = false ∧ canWrite liveState 0 pgPart = true := by decide +kernel
theorem wit_partOrders_create :
    newPart.bring.doneMap.testBit 12 = true ∧ newPart.sec.lcState ≠ 2 ∧ createCode newPart 0 = 0 ∧ armed newPart 0 pgPart = true
      ∧ newPart.stroke.state = .stopped ∧ newPart.partOrders = [] ∧ (newPart.part 0).state = .none := by decide +kernel
theorem wit_partOrders_refused :
    createCode { newPart with regs := [] } 0 = 3
      ∧ ({ partState.part 0 with order := some .shares } : Part).order ≠ none := by decide +kernel

theorem wit_bringStart :
    canWrite State.reset 0 pgBring = true ∧ canWrite State.reset 1 pgBring = false ∧ State.reset.bring.busy = false
      ∧ 1 = State.reset.bring.lastDone + 1 ∧ State.reset.sec.lcState ≠ 2 ∧ 2 ≠ State.reset.bring.lastDone + 1
      ∧ (bringDone 2).bring.lastDone + 1 = 3 ∧ (bringDone 12).bring.lastDone + 1 = 13 ∧ (bringDone 14).bring.lastDone + 1 = 15
      ∧ canWrite (bringDone 14) 0 pgBring = true ∧ (bringDone 12).link.valid = false ∧ ((bringDone 12).port 0).state ≠ .disabled
      ∧ (bringDone 14).stroke.epochWritten = false ∧ canWrite (bringBusy 3 .boot) 0 pgBring = true
      ∧ (bringBusy 3 .boot).bring.busy = true := by decide

theorem wit_bringEnd :
    (bringDone 3).bring.busy = false ∧ (bringBusy 2 (.fuses (some 3))).bring.busy = true ∧ (bringBusy 2 (.fuses (some 3))).bring.step = 2
      ∧ (bringBusy 2 (.fuses (some 3))).bring.work = some (.fuses (some 3)) ∧ (bringBusy 13 .boot).bring.step = 13
      ∧ ((bringBusy 13 .boot).port 0).state = .down ∧ (bringBusy 14 .boot).bring.busy = true
      ∧ ((bringBusy 14 .boot).part 31).order ≠ some .create ∧ (bringBusy 15 .boot).stroke.refOk = false
      ∧ (bringBusy 1 (.selfTest none true true true 0 true false)).bring.work = some (.selfTest none true true true 0 true false) := by
  decide
theorem wit_bringEnd_undo :
    (bringBusy 8 (.bist [3])).bring.busy = true ∧ (bringBusy 8 (.bist [3])).bring.work = some (.bist [3]) ∧ 3 < numPcores
      ∧ (bringBusy 15 .boot).bring.start.running = false ∧ (bringBusy 13 .boot).bring.busy = true
      ∧ ((bringBusy 14 .boot).array 5).resPart = 0 := by decide
theorem wit_bringEnd_ports : ∀ n, (0xFFF : Nat).testBit n = true ↔ (n < 12 ∧ ((bringBusy 13 .boot).port n).state ≠ .up
    ∧ ((bringBusy 13 .boot).port n).state ≠ .disabled) := by
  intro n
  have h : ∀ n, ((bringBusy 13 .boot).port n) = Port.reset := fun _ => rfl
  rw [h, show (0xFFF : Nat) = 2 ^ 12 - 1 from rfl, Nat.testBit_two_pow_sub_one]
  simp [Port.reset]

theorem wit_fwup :
    canWrite (fwState 2) 0 pgBring = true ∧ (fwupOf (fwState 2) 0).state = 2 ∧ ((fwState 2).part 0).state ≠ .none
      ∧ (fwState 2).bring.doneMap.testBit 15 = true ∧ ((fwState 2).part 1).state = .none
      ∧ (fwState 2).stroke.number + 2 ≤ (fwState 2).pair pgBring 0x07C 0x080 ∧ (fwupOf (fwState 0) 0).state ∉ [1, 2, 3]
      ∧ (fwupOf (fwState 0) 0).standby ≠ none ∧ verify (fwState 0) 2 [] ≠ 0 ∧ (fwupOf (fwState 1) 0).state = 1
      ∧ (fwupOf (fwState 3) 0).state = 3 ∧ (fwState 3).stroke.count = 0 ∧ ((fwState 3).part 0).plan = none := by decide +kernel

theorem wit_deviceResets :
    vfState.pins.pwrGood = true ∧ vfState.shut = false ∧ ({ vfState with shut := true } : State).shut = true
      ∧ ({ vfState.pins with pwrGood := false } : Pins).pwrGood = false ∧ lockState.bring.doneMap.testBit 4 = true
      ∧ lockState.clock.lock.testBit 21 = true ∧ lockState.clock.lock.testBit 20 = false ∧ strokesRun lockState = true
      ∧ strokesRun { lockState with stroke := Stroke.reset } = false := by decide

theorem wit_reports :
    canWrite (secState 1 []) 0 pgSec = true ∧ armed (secState 1 []) 0 pgSec = true ∧ pfBusy (secState 1 []) = false
      ∧ pfBusy (secState 1 [aSecReq false none]) = true ∧ strokesRun (secState 1 []) = false
      ∧ armed liveState 0 pgSec = false ∧ canWrite liveState 0 pgSec = true ∧ (∃ q ∈ (secState 1 [aSecReq true none]).sec.reqs, q.mc = true)
      ∧ (∀ q ∈ (secState 1 [aSecReq false none]).sec.reqs, q.mc = false) := by decide
theorem wit_reports_signed :
    (secState 1 [aSecReq false (some [1#8])]).sec.reqs = [aSecReq false (some [1#8])] ∧ (aSecReq false (some [1#8])).op = 1
      ∧ (aSecReq true none).snapshot = none ∧ strokesRun runState = true ∧ runState.stroke.count = 0 := by decide

theorem wit_lifeCycle :
    returnOk returnState = true ∧ armed returnState 0 pgSec = true ∧ pfBusy returnState = false ∧ returnOk (secState 0 []) = false
      ∧ (secState 0 []).sec.lcState = 0 ∧ (secState 1 []).sec.lcState ≠ 0 ∧ returnState.bring.doneMap.testBit 6 = true
      ∧ liveState.bring.doneMap.testBit 6 = false ∧ tokenOk (secState 1 []) [] = false ∧ (secState 1 []).sec.unlocked = false
      ∧ ({ Sec.reset with unlocked := true } : Sec).unlocked = true ∧ verify (secState 1 []) 1 [] ≠ 0
      ∧ returnState.sec.bootedB = false ∧ ({ Sec.reset with slotWrite := some (true, []) } : Sec).slotWrite = some (true, [])
      ∧ ({ Sec.reset with erasing := true } : Sec).erasing = true ∧ (254 : Nat).testBit 7 = true := by decide +kernel

theorem wit_thermal_sample :
    (([(0, { ok := true, value := 640 })] : List (Nat × SensorRead)).map (·.1)).Nodup ∧ runState.shut = false
      ∧ (runState.hub 0).blind = false ∧ (runState.hub 0).hot = false ∧ 0 ∈ hubSensors 0 ∧ 0 < 308 := by decide +kernel
theorem wit_thermal_steps :
    (hotState.hub 0).blind = false ∧ (hotState.hub 0).hot = true ∧ (hotState.hub 0).thDiv = 16 ∧ (hotState.hub 1).rateDiv < 16
      ∧ 16 * riseHold hotState ≤ (hotState.hub 1).calm ∧ (hotState.hub 1).cool = true ∧ (hotState.region 2).divNext = some (14, 1)
      ∧ (hotState.region 0).divNext = none ∧ neighbour 0 1 = some (1, 16) ∧ neighbour 0 2 = none ∧ (hotState.region 0).div = (hotState.region 1).div
      ∧ (hotState.region 1).divNext = none ∧ (hotState.region 0).side 1 = true ∧ (hotState.hub 3).blind = true := by decide +kernel

theorem wit_power :
    let s := powerState 400000
    (tStep s ≤ s.therm.capMs + 1) ∧ s.therm.capW ≠ 0 ∧ s.conv.powCnt ≠ 0 ∧ s.therm.capDiv = 16 ∧ s.shut = false
      ∧ (max 900 (min 1800 s.therm.capW) : Int) * (s.conv.powCnt * 4096 * 2 ^ 23) < s.conv.powSum * 50 * 64 * (s.chan 2).code := by
  decide +kernel
theorem wit_ce_rate :
    let s := runState.setStack 0 { Stack.reset with ceSecond := 70000 }
    max 1 (s.field (pgHbm 0) 0x058 0 16) < (s.stack 0).ceSecond ∧ (s.stack 1).ceSecond ≤ max 1 (s.field (pgHbm 1) 0x058 0 16) := by
  decide +kernel

theorem wit_converterOrders :
    canWrite (convState ConvCal.reset) 0 pgConv = true ∧ armed (convState ConvCal.reset) 0 pgConv = true
      ∧ (convState ConvCal.reset).conv.cal.busy = false ∧ (convState ConvCal.reset).conv.cal.zero = none
      ∧ (convState { ConvCal.reset with chan := 2, zero := some 5 }).conv.cal.zero ≠ none
      ∧ (convState { ConvCal.reset with busy := true }).conv.cal.busy = true ∧ armed liveState 0 pgConv = false
      ∧ State.reset.bring.doneMap.testBit 3 = false ∧ (bringDone 3).bring.doneMap.testBit 3 = true ∧ State.reset.conv.en = false
      ∧ ({ (convState ConvCal.reset).conv with en := true, ready := false } : Conv).ready = false := by decide
theorem wit_groupDue :
    groupChans (convState ConvCal.reset) 0 = [2] ∧ strokesRun (convState ConvCal.reset) = true
      ∧ (convState ConvCal.reset).stroke.number % ((convState ConvCal.reset).field pgConv 0x048 20 8 + 1) = 0
      ∧ Tbl.getD (convState ConvCal.reset).conv.groups 0 [] = [] ∧ groupChans liveState 1 = [] := by decide +kernel

theorem wit_conversions :
    visitState.conv.ready = true ∧ (visitState.modulator 2).chan = some 6 ∧ corrected (visitState.chan 6) 12288 = 12288
      ∧ (visitState.modulator 3).chan = none ∧ (visitState.modulator 2).queued = none ∧ (visitState.modulator 2).resume = none
      ∧ calibrating visitState 16 = false ∧ (visitState.reg pgConv 0x044).getLsbD 16 = true ∧ groupSampling visitState = []
      ∧ ((visitState.reg pgConv 0x060).getLsbD 8 || visitState.sec.lcState == 1) = true ∧ (visitState.modulator 0).group = none := by
  decide +kernel
theorem wit_calMeasure :
    let z (op : Nat) : State := convState { ConvCal.reset with chan := 2, op := op, busy := true, zero := some 0 }
    (z 1).conv.cal.busy = true ∧ agree 2 1000 1001 = true ∧ agree 2 0 100000 = false ∧ (z 2).conv.cal.zero = some 0
      ∧ (z 2).conv.cal.op ≠ 1 := by decide

theorem wit_registerWrites :
    canWrite vfState 0 pgInteg = true ∧ canWrite vfState 1 pgInteg = false ∧ armOffset pgMesh ≠ none ∧ armOffset pgInteg = none
      ∧ pfVector pgInteg ≠ none ∧ isOrder pgHbmPage 0x058 = false ∧ msixFunc 0 pgHbmPage = none ∧ pageKind pgHbmPage = some (7, 0)
      ∧ (regAt 7 0x058).map (fun x => (x.1.wo, x.1.rwa, x.1.rw)) = some (false, 0, 0xFFFF) ∧ canWrite vfState 0 pgHbmPage = true
      ∧ regAt 7 0xF00 = none ∧ (regAt 7 0x040).map (fun x => (x.1.rw, x.1.rwa, x.1.w1s)) = some (0, 0, 0)
      ∧ sidebandOnly 7 0x040 = false := by decide +kernel
theorem wit_unmasked :
    let s : State := { vfState with pf := { vfState.pf with bme := true, msixMask := [(10, false)] } }
    pfVector pgInteg = some 10 ∧ s.pf.bme = true ∧ Tbl.getD s.pf.msixMask 10 true = false := by decide +kernel
theorem wit_readsAndWindow :
    canRead vfState 0 pgServe = true ∧ canRead vfState 33 pgServe = false ∧ canRead vfState 0 pgConv = true ∧ highHalf vfState 4 0 0x058 = some 0
      ∧ pageKind pgStroke = some (4, 0) ∧ (vfState.part 0).state = .ready ∧ (vfState.part 0).resetting = false ∧ vfState.shut = false
      ∧ Mem.wf (vfState.part 0).scratch = true ∧ vfState.field pgPart 0x07C 0 5 = 0 := by decide +kernel

theorem wit_scribeWords :
    opOk .nop (fieldsOf 0#64) = true ∧ decodeScribe 0#64 = some (.nop, fieldsOf 0#64)
      ∧ opcodeOf ((0xFF00000000000000#64).extractLsb' 56 8).toNat = none := by decide

theorem wit_reset : pageKind pgStroke = some (4, 0) ∧ pageKind pgTherm = some (9, 0) := by decide

theorem wit_invariant : State.reset.HostOk ∧ State.reset.LifeOk ∧ runState.HostOk ∧ runState.LifeOk := by decide

/-! ### Further cases of the statements -/

theorem wit_branchFaults :
    issues .jmp (mkIssue 0 0 0 0 20 0) oneScribe = true ∧ issues .brp (mkIssue 0 1 0 0 20 0) oneScribe = true
      ∧ (oneScribe.scribe 0).nInstr ≤ 20 ∧ (oneScribe.scribe 0).arch.p_ 0 1 = true
      ∧ issues .loop (mkIssue 0 0 0 0 30 0) oneScribe = true ∧ ¬ (oneScribe.scribe 0).pc + 30 < (oneScribe.scribe 0).nInstr := by decide
theorem wit_broadRecord : (broadState.scribe 0).broadReplay = [] := rfl
theorem wit_arrayDeliveryFair :
    let s : State := arrayState.setArray 191 { ArrayUnit.reset with eval := some { someEval .narrow false with fair := true } }
    ∃ e, (s.array 191).eval = some e ∧ e.wanted = false ∧ e.fair = true := ⟨_, rfl, by decide⟩
theorem wit_trackingOn :
    trackEn fullWindow (191 / 32) = true ∧ trackEn wideWindow (191 / 32) = true ∧ (fullWindow.array 191).trackHold = false
      ∧ (wideWindow.array 191).trackHold = false ∧ trackEn { fullWindow with regs := [(4096 * pgCore 5 + 0x380, 0#32)] } 5 = false := by decide
theorem wit_rendezvousAnswers :
    (waitingSend.scribe 0).mode ≠ .stopped ∧ (∃ q, (matchedRecv.scribe 0).sends = [q] ∧ q.id = 1 ∧ q.device = none ∧ q.dests = [1] ∧ q.all = [1])
      ∧ (∃ r, (matchedRecv.scribe 1).recvs = [r] ∧ r.matched = true ∧ r.sendId = 1 ∧ r.peer = (matchedRecv.scribe 0).pindex ∧ r.device = none)
      ∧ (matchedRecv.scribe 0).mode ≠ .stopped ∧ (dataRecv.scribe 1).mode ≠ .stopped
      ∧ ∃ r bs, (dataRecv.scribe 1).recvs.find? (fun x => x.id == 1) = some r ∧ r.matched = true ∧ r.device = none ∧ r.data = some bs :=
  ⟨by decide, ⟨_, rfl, by decide⟩, ⟨_, rfl, by decide⟩, by decide, by decide, _, _, rfl, by decide, by decide, rfl⟩

/-- The terms of array 3 of plan index 1, then of array 2 of plan index 0, make the chains of tags 4 to 7 at plan index 1. -/
def someChain : Chain :=
  { pindex := 1, tag := 4, addr := 0, count := 2, offs := [(1, 3), (0, 2)],
    order := [{ core := 6, array := 3, pindex := 1 }, { core := 5, array := 2, pindex := 0 }] }
def chainState : State := ligState.updPart 0 (fun x => { x with plan := some { smallPlan with chains := [someChain] } })
theorem wit_chainContribution :
    let i := mkIssue 0 2 6 0 (4 + 2 ^ 16 + 2 ^ 18 * 2) 0
    issues .lig i chainState = true ∧ i.f.imm.getLsbD 16 = true ∧ i.f.imm.getLsbD 17 = false ∧ (∃ j, chainState.job 0 = some j)
      ∧ (((chainState.scribe 0).arch.g_ 0 6).extractLsb' 0 10).toNat = 1 ∧ 1 < planNcore chainState 0 ∧ lcoreOf chainState 0 1 = some 1
      ∧ relayMode chainState 1 = false ∧ Tbl.getD chainState.slotsLig (runCore chainState 0) [] = []
      ∧ ∃ o, o = someChain.order ∧ (∀ f < 4, chainOrder chainState 1 (4 + f) (chainState.scribe 0).pindex (i.f.imm.extractLsb' 18 5).toNat = some o)
        ∧ 0 < o.findIdx (fun x => x.array == (i.f.imm.extractLsb' 18 5).toNat && x.pindex == (chainState.scribe 0).pindex) :=
  ⟨by decide, by decide, by decide, ⟨_, rfl⟩, by decide, by decide, by decide, by decide, by decide, _, rfl, by decide⟩
theorem wit_mergeReceipt :
    let r : LigReceipt := { tag := 4, lfmt := false, dest := 9, expected := 0, index := 2, failed := false }
    (∀ f < 4, tagFailed (ligState.scribe 0) r f = false) ∧ (gatheredState.scribe 0).receipts = []
      ∧ (∀ f < 4, (oneFlit f).terms = [] ∧ (oneFlit f).ncontrib = 1)
      ∧ (∀ f < 4, gathered (waitingReceipt.scribe 0) { r with expected := 2, index := 1 } f = none) := by decide

theorem wit_jobStart_job :
    let j : Job := { aJob with started := false, inStep := false }
    (jobWith j).job 0 = some j ∧ ((jobWith j).part 0).plan = some smallPlan ∧ j.hold = none ∧ j.abandoned = false := by decide
theorem wit_spanAbandon_again :
    let j : Job := { aJob with span := 8, abandoned := true }
    atBoundary (jobWith j) = true ∧ maxSpan (jobWith j) 0 ≤ j.span ∧ j.abandoned = true ∧ commitHeld j = false := by decide
theorem wit_holdover_resync :
    let s : State := { runState with stroke := { runState.stroke with state := .holdover, resync := true } }
    s.stroke.state = .holdover ∧ s.stroke.resync = true ∧ ({ s.stroke with resync := false } : Stroke).number % 65536 ≠ 0
      ∧ s.stroke.number + 2 ≤ 70002 := by decide
theorem wit_switchPending :
    let s : State := { runState with stroke := { runState.stroke with pend := some (50000, 0#32, 70001) } }
    s.stroke.pend = some (50000, 0#32, 70001) ∧ ¬ s.stroke.number + 2 ≤ 70001 := by decide
/-- Slot 6 resumes with its pages given back; what was parked stands in host memory or in the pool. -/
def resumeState (ctrl : Nat) : State :=
  (parkState .resuming ctrl).setSlot 6 { (parkState .resuming ctrl).slot 6 with pagesHeld := true, parked := [(0, [(3, .committed)])] }
theorem wit_resumeReady :
    ((resumeState 2).slot 6).state = .resuming ∧ ((resumeState 2).slot 6).cancel = none ∧ ((resumeState 2).slot 6).pagesReady = false
      ∧ ((resumeState 2).slot 6).pagesHeld = true ∧ ((resumeState 2).slot 6).readFailed = false ∧ ((resumeState 2).slot 6).resumeCtrl = 2
      ∧ ((resumeState 3).slot 6).resumeCtrl = 3 ∧ hostOpen ((resumeState 3).part ((resumeState 3).slot 6).part) = true
      ∧ ((resumeState 3).slot 6).parked[0]? = some (0, [(3, PosState.committed)]) ∧ Tbl.get? ((resumeState 3).slot 6).kvMap 0 = some 2 := by
  decide +kernel
theorem wit_resumeReady_closed :
    let s := (resumeState 3).setPart 0 { (resumeState 3).part 0 with bme := false }
    (s.slot 6).resumeCtrl = 3 ∧ hostOpen (s.part (s.slot 6).part) = false := by decide +kernel
theorem wit_sampleCompare_right :
    let d : Nat × List W64 := (10, [12#64])
    (aCheck none).traces.map (·.digest) = [11#64] ∧ ([12#64] : List W64) ≠ [11#64] ∧ ([13#64] : List W64) ≠ d.2
      ∧ (aCheck (some d)).first = some (10, [12#64]) := by decide
theorem wit_proofDeadline_late :
    let r : ProofRun := { aProof none false with forced := 4 }
    proofDue (proofState r) r ≤ (proofState r).stroke.number ∧ (proofState r).integ.proof = some r := by decide +kernel

theorem wit_imageDone_change :
    ({ loadState false with weight := { (loadState false).weight with abandoned := true } } : State).weight.abandoned = true
      ∧ ((loadState true).part 0).edition = 0 := by decide
theorem wit_writeSlotDone_erase :
    let q : Prog := { aProg with started := true, why := .erase }
    let s : State := { progState with weight := { Weight.reset with queue := [q] } }
    s.weight.queue.find? (fun y => y.started && progKey y == 288) = some q ∧ q.tries = 0 ∧ ({ aProg with tries := 1 } : Prog).tries ≠ 0 := by
  decide
def verifyState (a : ArrayUnit) : State :=
  { (progState.setArray 288 a).setPart 0 { progState.part 0 with edition := 1 } with weight := Weight.reset }
theorem wit_arrayVerify_states :
    let a : ArrayUnit := { ArrayUnit.reset with resState := .resident, edition := 1 }
    let s := verifyState a
    (s.array 288).verified = false ∧ tileLost s (s.array 288).resPart (some (s.array 288).tile) = false
      ∧ ((verifyState { a with resState := .programming }).array 288).resState = .programming
      ∧ ((verifyState { a with recOk := false }).array 288).recOk = false
      ∧ tileLost (s.setPart 0 { s.part 0 with curImage := some { smallImage with lost := [0] } }) 0 (some (s.array 288).tile) = true := by
  decide +kernel

theorem wit_editionSwitch_waiting :
    let s := (changeState (.rollPending 70000)).setSlot 6 { Slot.reset with state := .decode, desc := { Desc.zero with flags := 2 } }
    let t := s.setPart 0 { s.part 0 with rollRaised := true }
    let u := s.setPart 0 { s.part 0 with job := some { wideJob with inStep := false, ordersDue := true, listFixed := false } }
    (s.part 0).rollRaised = false ∧ adapterNamed t 0 = true ∧ (t.part 0).rollRaised = true
      ∧ stepCommitted u 0 = true ∧ switchDecided u 0 = false ∧ (u.part 0).change = .rollPending 70000
      ∧ ((changeState (.rollPending 70001)).part 0).change = .rollPending 70001 ∧ (changeState (.rollPending 70001)).stroke.number < 70001 := by
  decide +kernel
theorem wit_editionSwitch_slots : adapterNamed ((changeState (.rollPending 70000)).setPart 0
    { (changeState (.rollPending 70000)).part 0 with job := some { wideJob with inStep := false, ordersDue := true, listFixed := false } }) 0
      = false := by decide +kernel

theorem wit_calibration_done :
    let s : State := { calState with cal := { Cal.reset with busy := true, left := [288], evals := 128 } }
    s.cal.evals = 128 ∧ (s.array 288).eval = none ∧ calReady s 288 = true ∧ s.cal.left = [288] := by decide +kernel
theorem wit_calibration_busy :
    let s : State := { calState with cal := { Cal.reset with busy := true, left := [288], evals := 5 } }
    idleArray (s.setArray 288 { s.array 288 with eval := some (someEval .narrow true) }) 288 = false := by decide +kernel
theorem wit_trimCapture :
    (trimState.part 0).curImage = some smallImage ∧ (trimState.trim 0 0).captures.length < 64 ∧ aCapture.x.length = aProj.nIn
      ∧ aCapture.y.length = aProj.nOut ∧ ({ aCapture with x := [] } : Capture).x.length ≠ aProj.nIn := by decide +kernel
theorem wit_trimCapture_place : poolPlace trimState (trimState.part 0) (4 * (aProj.nIn + aProj.nOut)) ≠ none := by
  obtain ⟨o, h⟩ := poolPlace_some (s := trimState) (x := trimState.part 0) (n := 4 * (aProj.nIn + aProj.nOut))
    List.mem_cons_self (by decide +kernel)
  simp [h]
theorem wit_trimBatch :
    let z : TrimCapt := { x := [], slices := [], y := [], target := [], offset := 0 }
    let s := trimState.setTrim 0 0 { Trim.reset with en := true, captures := List.replicate 8 z }
    (List.range 8).length = 8 ∧ (List.range 8).Nodup ∧ (∀ i ∈ List.range 8, i < (s.trim 0 0).captures.length) ∧ (s.trim 0 0).en = true := by
  decide +kernel

theorem wit_adapters_place : poolPlace (adaptState 1) ((adaptState 1).part 0) goodAdapter.length ≠ none := by
  obtain ⟨o, h⟩ := poolPlace_some (s := adaptState 1) (x := (adaptState 1).part 0) (n := goodAdapter.length)
    List.mem_cons_self (by decide +kernel)
  simp [h]
theorem wit_planLoadDone_pool : (planReady.part 0).adaptersNew = [] := by decide

/-- A packet of a type without data for a coordinate and a job, in its tenth step. -/
def aHeader (typ dst job : Nat) (pcrc : W32) : BitVec 512 := makeHeader typ 0 dst 0 job 0 0 0 9 0 0 pcrc 0#256
/-- Port 8, towards +X, holds that packet in a channel; port 2 is UP as well. -/
def rxState (vc : Nat) (h : BitVec 512) (j : Job) : State :=
  { (linkState .up).setPort 8 { Port.reset with state := .up, dir := 1, rx := [(vc, packetSlots vc h [])] } with
    parts := [(0, { Part.reset with state := .ready, plan := some smallPlan, job := some j })] }
theorem wit_packets :
    let h := aHeader 1 0 7 0#32
    headPacket (Tbl.getD ((rxState 1 h aJob).port 8).rx 1 []) = some (h, [], []) ∧ headPacket (Tbl.getD ((rxState 1 h aJob).port 2).rx 1 []) = none
      ∧ hdrDst h = (rxState 1 h aJob).link.coord ∧ hdrType h = 1 ∧ partOfJob (rxState 1 h aJob) (hdrJob h) = some 0
      ∧ (rxState 1 h aJob).job 0 = some aJob ∧ stepTagOk aJob (hdrStepTag h) = true ∧ pcrcOk h [] = true
      ∧ stepTagOk { aJob with stepNo := 10 } (hdrStepTag h) = false ∧ pcrcOk (aHeader 1 0 7 5#32) [] = false
      ∧ aJob.inStep = true ∧ aJob.replaying = false ∧ aJob.suspects = [] ∧ aJob.fault = none := by decide +kernel
theorem wit_packets_noJob :
    let h := aHeader 10 0 8 0#32
    hdrType (aHeader 0 0 7 0#32) = 0 ∧ hdrType h = 10 ∧ hdrType (aHeader 2 0 8 0#32) = 2 ∧ partOfJob (rxState 0 h aJob) (hdrJob h) = none
      ∧ pcrcOk h [] = true ∧ pcrcOk (aHeader 10 0 8 5#32) [] = false := by decide +kernel
theorem hashPort_one (n : Nat) (h : BitVec 512) : hashPort [n] h = some n := by simp [hashPort, Nat.mod_one]
/-- A packet that came along -X goes on along -Y over the dateline. -/
def transitHeader : BitVec 512 := aHeader 1 768 8 0#32
def transitState : State := rxState 1 transitHeader aJob
theorem wit_packets_transit :
    hdrDst transitHeader ≠ transitState.link.coord ∧ (transitState.port 8).dir < 6 ∧ vcOf 1 true < 6
      ∧ packetExit transitState transitHeader (some (oppositeDir (transitState.port 8).dir)) = some (2, false, true) := by
  have d : packetDir transitState (planOfJob transitState (hdrJob transitHeader)) transitState.link.coord (hdrDst transitHeader) none
      = some 2 := by decide +kernel
  have e : (portsOf transitState 2).filter (portServes transitState) = [2] := by decide +kernel
  have n : hdrDetoured transitHeader = false := by decide +kernel
  have v : vcOf (hdrType transitHeader) false = 1 := by decide +kernel
  have x : crossesDateline transitState transitState.link.coord 2 = true := by decide +kernel
  refine ⟨by decide +kernel, by decide +kernel, by decide, ?_⟩
  simp [packetExit, v, n, d, e, x, hashPort_one]
theorem wit_packets_nowhere :
    let h := aHeader 8 768 7 0#32
    packetExit (rxState 5 h aJob) h none = none := by
  have e : portsOf (rxState 5 (aHeader 8 768 7 0#32) aJob) 6 = [] := by decide +kernel
  have v : vcOf (hdrType (aHeader 8 768 7 0#32)) false = 5 := by decide +kernel
  simp [packetExit, v, e, hashPort]
theorem wit_announcement_port : portServes (linkState .up) 2 = true ∧ (linkState .up).pins.linkIdle = false := by decide +kernel
theorem wit_heartbeats_buddy :
    let s : State := { pairState .solo with link := { Link.reset with buddyValid := true, buddy := 5 } }
    s.link.buddyValid = true ∧ 6 ∈ portsOf s 6 ∧ portServes s 6 = true := by decide +kernel
theorem wit_jobControl_tokens :
    (listedState_.slot 6).gen = 3 ∧ ({ wideJob with replaying := true } : Job).replaying = true
      ∧ pairedNow (pairState .paired) 0 = true ∧ sameEdition ((pairState .paired).part 0) = true
      ∧ pairedNow listedState_ 0 = false ∧ ((pairState .paired).part 0).pair.state ≠ .unpaired
      ∧ (pairState .paired).integ.taints.length < 16 := by decide +kernel
theorem wit_bringEnd_mesh :
    let s0 := bringBusy 9 (.mesh [] [] true [])
    let s : State := { s0 with bring := { s0.bring with fast := true, meshOk := true } }
    s.bring.step = 9 ∧ s.bring.busy = true ∧ s.bring.work = some (.mesh [] [] true []) ∧ s.bring.fast = true ∧ s.bring.meshOk = true := by
  decide
theorem wit_bringEnd_trims :
    (bringBusy 11 (.trims [5] false)).bring.work = some (.trims [5] false) ∧ (bringBusy 11 (.trims [] true)).bring.work = some (.trims [] true)
      ∧ (bringBusy 11 (.trims [5] false)).bring.step = 11 ∧ (bringBusy 11 (.trims [5] false)).bring.busy = true := by decide

end Sys2Proof.Tests
end

section
/-! One step, by what waits in the queue. -/

namespace Sys2Proof.Machine

/-- The rule of a step with a command waiting: `exec` sees the state without that command. -/
theorem step_of_pending_cons {s : State} {c : Instr} {rest : List Instr} (h : s.pending = c :: rest) :
    step s = exec c { s with pending := rest } := by
  unfold step
  rw [h]

/-- The rule of the idle step (log entry 1). -/
theorem step_of_pending_nil {s : State} (h : s.pending = []) : step s = .next (tick s) := by
  unfold step
  rw [h]

/-- Settles O1: the two rules of a step, each at a state whose queue is written out. -/
theorem stepRunsFrontCommand : Obligations.StepRunsFrontCommand := by
  intro c rest s
  constructor
  · exact step_of_pending_cons (s := { s with pending := c :: rest }) rfl
  · exact step_of_pending_nil (s := { s with pending := [] }) rfl

end Sys2Proof.Machine
end

section
/-! The scalar operations and conditions by their values (R190, R191), and the instructions ALU, CMP and SEL. -/

namespace Sys2Proof.Machine

/-- What issues has an encoding that its row of the table calls valid (R152, R181). -/
theorem opSig_valid_of_issues {c : Opcode} {i : Issue} {s : State} (h : issues c i s = true) : (opSig c i.f).valid = true := by
  obtain ⟨-, -, -, -, hok, -⟩ := (issues_iff c i s).mp h
  exact ((Bool.and_eq_true _ _).mp hok).2

theorem aluCode_lt_of_issues {i : Issue} {s : State} (h : issues .alu i s = true) : immBits i.f 0 4 < 14 :=
  of_decide_eq_true (opSig_valid_of_issues h)

theorem cmpCode_lt_of_issues {i : Issue} {s : State} (h : issues .cmp i s = true) : immBits i.f 0 3 < 6 :=
  of_decide_eq_true (opSig_valid_of_issues h)

/-! ### The instructions where they issue -/

theorem exec_alu_of_issues {i : Issue} {s : State} (h : issues .alu i s = true) :
    let sc := s.scribe i.lcore
    exec (.alu i) s = .next (retired s i.lcore (sc.arch.setG i.f.dest.toNat
      (aluOp (immBits i.f 0 4) (rdG i sc i.f.src1.toNat) (rdG i sc i.f.src2.toNat)))) :=
  archOp_issues .alu i s _ h

theorem exec_cmp_of_issues {i : Issue} {s : State} (h : issues .cmp i s = true) :
    let sc := s.scribe i.lcore
    exec (.cmp i) s = .next (retired s i.lcore (sc.arch.setP i.f.dest.toNat (cmpCond (immBits i.f 0 3) (rdG i sc i.f.src1.toNat)
      (if fieldFlag i.f 0 then (i.f.imm.extractLsb' 8 24).signExtend 64 else rdG i sc i.f.src2.toNat)))) :=
  archOp_issues .cmp i s _ h

theorem exec_sel_of_issues {i : Issue} {s : State} (h : issues .sel i s = true) :
    let sc := s.scribe i.lcore
    exec (.sel i) s = .next (retired s i.lcore (sc.arch.setG i.f.dest.toNat
      (if sc.arch.p_ i.lcore (immBits i.f 0 3) then rdG i sc i.f.src1.toNat else rdG i sc i.f.src2.toNat))) :=
  archOp_issues .sel i s _ h

/-! ### Values of the operations of ALU -/

/-- A difference modulo 2^64 is what the subtrahend is added to. -/
theorem aluOp_sub_toNat_add (x y : W64) : ((aluOp 1 x y).toNat + y.toNat) % 2 ^ 64 = x.toNat := by
  rw [← BitVec.toNat_add]
  exact congrArg BitVec.toNat (BitVec.sub_add_cancel x y)

theorem aluOp_shiftLeft_toNat (x y : W64) : (aluOp 5 x y).toNat = x.toNat * 2 ^ (y.toNat % 64) % 2 ^ 64 := by
  simp only [aluOp, BitVec.toNat_shiftLeft, Nat.shiftLeft_eq]

theorem aluOp_shiftRight_toNat (x y : W64) : (aluOp 6 x y).toNat = x.toNat / 2 ^ (y.toNat % 64) := by
  simp only [aluOp, BitVec.toNat_ushiftRight, Nat.shiftRight_eq_div_pow]

theorem aluOp_sshiftRight_toInt (x y : W64) : (aluOp 7 x y).toInt = x.toInt / 2 ^ (y.toNat % 64) := by
  simp only [aluOp, BitVec.toInt_sshiftRight, Int.shiftRight_eq_div_pow, Nat.cast_pow, Nat.cast_ofNat]

/-- The upper half of a signed product is a signed 64-bit number. -/
theorem mulHigh_bounds (x y : W64) : -2 ^ 63 ≤ x.toInt * y.toInt / 2 ^ 64 ∧ x.toInt * y.toInt / 2 ^ 64 < 2 ^ 63 := by
  have habs (z : W64) : |z.toInt| ≤ 2 ^ 63 := abs_le.mpr ⟨BitVec.le_toInt z, (BitVec.toInt_lt (x := z)).le⟩
  have hprod : |x.toInt * y.toInt| ≤ 2 ^ 63 * 2 ^ 63 := by
    rw [abs_mul]
    exact mul_le_mul (habs x) (habs y) (abs_nonneg _) (by norm_num)
  obtain ⟨hlo, hhi⟩ := abs_le.mp hprod
  omega

theorem aluOp_mulHigh_toInt (x y : W64) : (aluOp 9 x y).toInt = x.toInt * y.toInt / 2 ^ 64 :=
  BitVec.toInt_ofInt_eq_self (by decide) (mulHigh_bounds x y).1 (mulHigh_bounds x y).2

theorem aluOp_smin_toInt (x y : W64) : (aluOp 10 x y).toInt = min x.toInt y.toInt :=
  (apply_ite BitVec.toInt _ x y).trans (min_def _ _).symm

theorem aluOp_smax_toInt (x y : W64) : (aluOp 11 x y).toInt = max x.toInt y.toInt :=
  (apply_ite BitVec.toInt _ y x).trans (max_def _ _).symm

theorem aluOp_umin_toNat (x y : W64) : (aluOp 12 x y).toNat = min x.toNat y.toNat :=
  (apply_ite BitVec.toNat _ x y).trans (min_def _ _).symm

theorem aluOp_umax_toNat (x y : W64) : (aluOp 13 x y).toNat = max x.toNat y.toNat :=
  (apply_ite BitVec.toNat _ y x).trans (max_def _ _).symm

/-- Settles O3: the encodings 14 and 15 do not issue, and each of the others has its value lemma. -/
theorem aluComputesModulo64 : Obligations.AluComputesModulo64 := by
  intro i s h sc x y
  refine ⟨aluOp (immBits i.f 0 4) x y, exec_alu_of_issues h, ?_⟩
  have hop := aluCode_lt_of_issues h
  rw [immBits] at hop ⊢
  generalize (i.f.imm.extractLsb' 0 4).toNat = op at hop ⊢
  match op, hop with
  | 0, _ => exact BitVec.toNat_add x y
  | 1, _ => exact aluOp_sub_toNat_add x y
  | 2, _ => rfl
  | 3, _ => rfl
  | 4, _ => rfl
  | 5, _ => exact aluOp_shiftLeft_toNat x y
  | 6, _ => exact aluOp_shiftRight_toNat x y
  | 7, _ => exact aluOp_sshiftRight_toInt x y
  | 8, _ => exact BitVec.toNat_mul x y
  | 9, _ => exact aluOp_mulHigh_toInt x y
  | 10, _ => exact aluOp_smin_toInt x y
  | 11, _ => exact aluOp_smax_toInt x y
  | 12, _ => exact aluOp_umin_toNat x y
  | 13, _ => exact aluOp_umax_toNat x y

/-- Settles O4: the conditions 6 and 7 do not issue, and each of the others is decided by its comparison. -/
theorem comparesWritePredicate : Obligations.ComparesWritePredicate := by
  intro i s sc g x y
  refine ⟨fun h => ⟨cmpCond (immBits i.f 0 3) x y, exec_cmp_of_issues h, ?_⟩, exec_sel_of_issues⟩
  have hcond := cmpCode_lt_of_issues h
  rw [immBits] at hcond ⊢
  generalize (i.f.imm.extractLsb' 0 3).toNat = cond at hcond ⊢
  match cond, hcond with
  | 0, _ => exact beq_iff_eq
  | 1, _ => exact bne_iff_ne
  | 2, _ => exact decide_eq_true_iff
  | 3, _ => exact decide_eq_true_iff
  | 4, _ => exact decide_eq_true_iff
  | 5, _ => exact decide_eq_true_iff

end Sys2Proof.Machine
end
